-- ==== Sys2Proof/Word.lean ====
section
/-! DEFINITION. The plain word types of the block (00_scope.md R13, R15): bytes of window memory, the
32-bit registers and command words, and the 64-bit data registers. Bits are numbered from 0, the
least significant. -/

namespace Sys2Proof

/-- A byte of window memory (R15). -/
abbrev Byte := BitVec 8

/-- A 32-bit register or command word (R13, R100). -/
abbrev Word32 := BitVec 32

/-- A 64-bit data register (R13). -/
abbrev Word64 := BitVec 64

end Sys2Proof
end

