-- ==== Sys2Proof/Config.lean ====
section
/-! DEFINITION. What an implementation of the block fixes (00_scope.md §4, 92_eei_decisions.md's OPEN
parameters), the block's constants, and the free values: opaque constants with no body, standing for
the values the spec leaves open, of which nothing can be proved. -/

namespace Sys2Proof

/-- The OPEN parameters of one device instance (R10, R11). They are data carried by the state, so that
a statement for every state is a statement for every instance; no step changes them (log 2). -/
structure Params where
  /-- `CAP.PTR64`: true when `PTR_W = 64`, false when `PTR_W = 32` (R11, R36). -/
  ptr64 : Bool
  /-- `ADDR_W - 1`, so that `ADDR_W` is in 1..64 (R10). -/
  addrWMinus1 : Fin 64
  deriving DecidableEq, Repr

/-- `ADDR_W`, the width of window memory's byte addresses, 1..64 (R10). -/
def Params.addrW (p : Params) : Nat := p.addrWMinus1.val + 1

/-- `PTR_W`, 32 or 64 (R11). -/
def Params.ptrW (p : Params) : Nat := if p.ptr64 then 64 else 32

/-- The number of byte addresses of window memory, `2^ADDR_W` (R10, R90). -/
def Params.addrSpace (p : Params) : Nat := 2 ^ p.addrW

/-- The instance that `State.reset` is: `PTR_W = 64`, `ADDR_W = 32`, the values of
95_test_vectors.md's start state and identification example. DESIGN CHOICE (log 2); unsafe for a
statement about `State.reset` alone, which is then about this instance. -/
def Config.defaultParams : Params := { ptr64 := true, addrWMinus1 := 31 }

/-- `MAX_LEN = 2^28` (R9): a window is shorter than this. -/
def Config.maxLen : Nat := 2 ^ 28

/-- `CAP.LEN_LOG2`, the logarithm of `MAX_LEN` (R36). -/
def Config.lenLog2 : Nat := 28

/-- The constant `ID` reads (R35). -/
def Config.idValue : Word32 := 0x42495453

/-- The value of a byte of window memory that nothing has written. The spec gives none (R57, R422).
DESIGN CHOICE (log 1), unsafe: a proof about `State.reset`'s memory could lean on this 0. -/
def Config.unlistedByte : Byte := 0

/-- FREE VALUE: the byte in window memory where the spec admits any byte (R386 after a BUS_ERROR of a
write, R421 after a reset during a command, R92(d) in a race). The argument numbers the uses (log 8,
9, 10). Safe: nothing is known of it. -/
opaque Config.freeByte : Nat → Byte

/-- FREE VALUE: which of the writes still to be made comes next, where the order among one command's
byte writes can be seen (R87; log 11). Safe: nothing is known of it. -/
opaque Config.freeChoice : Nat → Nat

end Sys2Proof
end

