-- ==== Sys2Proof/Syntax.lean ====
section
/-! DEFINITION. The command set: one constructor per row of spec/opcode_table.json (30_encoding.md
R109), none with an operand, since every operand is a register the host wrote before (R111). Beside
it the parameters that a row's name is made of (R101 to R107) and the fields of a command word. -/

namespace Sys2Proof

/-- Bit order, `ORD` (R103): 0 = LSB, 1 = MSB. -/
inductive Order where
  | lsb
  | msb
  deriving DecidableEq, Repr

/-- Width class, `WID` (R104): 8, 16, 32, 64 bits or the pointer width. -/
inductive WidthClass where
  | w8
  | w16
  | w32
  | w64
  | ptr
  deriving DecidableEq, Repr

/-- Signedness, `SGN` (R105): 0 = unsigned, 1 = signed. -/
inductive Sign where
  | unsigned
  | signed
  deriving DecidableEq, Repr

/-- Operand kind, `SRC` (R106): 0 = the window, 1 = the scalar register. -/
inductive Source where
  | window
  | scalar
  deriving DecidableEq, Repr

/-- Seek origin, `ORG` (R107). -/
inductive Origin where
  | begin
  | current
  | fromEnd
  deriving DecidableEq, Repr

/-- The fields of a 32-bit command word (R101). -/
structure Fields where
  /-- Bits 3:0, the operation (R102). -/
  op : BitVec 4
  /-- Bit 4, the bit order (R103). -/
  ord : BitVec 1
  /-- Bits 7:5, the width class (R104). -/
  wid : BitVec 3
  /-- Bit 8, the signedness (R105). -/
  sgn : BitVec 1
  /-- Bit 9, the operand kind (R106). -/
  src : BitVec 1
  /-- Bits 11:10, the seek origin (R107). -/
  org : BitVec 2
  /-- Bits 31:12, reserved, 0 (R108). -/
  rsv : BitVec 20
  deriving DecidableEq, Repr

/-- The commands. The docstring of each names its row and its rule. -/
inductive Instr where
  /-- `RD.U8.LSB`, R180. -/
  | rdU8Lsb
  /-- `RD.U8.LSB.S`, R181. -/
  | rdU8LsbS
  /-- `RD.U8.MSB`, R182. -/
  | rdU8Msb
  /-- `RD.U8.MSB.S`, R183. -/
  | rdU8MsbS
  /-- `RD.I8.LSB`, R184. -/
  | rdI8Lsb
  /-- `RD.I8.LSB.S`, R185. -/
  | rdI8LsbS
  /-- `RD.I8.MSB`, R186. -/
  | rdI8Msb
  /-- `RD.I8.MSB.S`, R187. -/
  | rdI8MsbS
  /-- `RD.U16.LSB`, R188. -/
  | rdU16Lsb
  /-- `RD.U16.LSB.S`, R189. -/
  | rdU16LsbS
  /-- `RD.U16.MSB`, R190. -/
  | rdU16Msb
  /-- `RD.U16.MSB.S`, R191. -/
  | rdU16MsbS
  /-- `RD.I16.LSB`, R192. -/
  | rdI16Lsb
  /-- `RD.I16.LSB.S`, R193. -/
  | rdI16LsbS
  /-- `RD.I16.MSB`, R194. -/
  | rdI16Msb
  /-- `RD.I16.MSB.S`, R195. -/
  | rdI16MsbS
  /-- `RD.U32.LSB`, R196. -/
  | rdU32Lsb
  /-- `RD.U32.LSB.S`, R197. -/
  | rdU32LsbS
  /-- `RD.U32.MSB`, R198. -/
  | rdU32Msb
  /-- `RD.U32.MSB.S`, R199. -/
  | rdU32MsbS
  /-- `RD.I32.LSB`, R200. -/
  | rdI32Lsb
  /-- `RD.I32.LSB.S`, R201. -/
  | rdI32LsbS
  /-- `RD.I32.MSB`, R202. -/
  | rdI32Msb
  /-- `RD.I32.MSB.S`, R203. -/
  | rdI32MsbS
  /-- `RD.U64.LSB`, R204. -/
  | rdU64Lsb
  /-- `RD.U64.LSB.S`, R205. -/
  | rdU64LsbS
  /-- `RD.U64.MSB`, R206. -/
  | rdU64Msb
  /-- `RD.U64.MSB.S`, R207. -/
  | rdU64MsbS
  /-- `RD.I64.LSB`, R208. -/
  | rdI64Lsb
  /-- `RD.I64.LSB.S`, R209. -/
  | rdI64LsbS
  /-- `RD.I64.MSB`, R210. -/
  | rdI64Msb
  /-- `RD.I64.MSB.S`, R211. -/
  | rdI64MsbS
  /-- `RD.UP.LSB`, R212. -/
  | rdUPLsb
  /-- `RD.UP.LSB.S`, R213. -/
  | rdUPLsbS
  /-- `RD.UP.MSB`, R214. -/
  | rdUPMsb
  /-- `RD.UP.MSB.S`, R215. -/
  | rdUPMsbS
  /-- `RD.IP.LSB`, R216. -/
  | rdIPLsb
  /-- `RD.IP.LSB.S`, R217. -/
  | rdIPLsbS
  /-- `RD.IP.MSB`, R218. -/
  | rdIPMsb
  /-- `RD.IP.MSB.S`, R219. -/
  | rdIPMsbS
  /-- `WR.U8.LSB`, R240. -/
  | wrU8Lsb
  /-- `WR.U8.LSB.S`, R241. -/
  | wrU8LsbS
  /-- `WR.U8.MSB`, R242. -/
  | wrU8Msb
  /-- `WR.U8.MSB.S`, R243. -/
  | wrU8MsbS
  /-- `WR.I8.LSB`, R244. -/
  | wrI8Lsb
  /-- `WR.I8.LSB.S`, R245. -/
  | wrI8LsbS
  /-- `WR.I8.MSB`, R246. -/
  | wrI8Msb
  /-- `WR.I8.MSB.S`, R247. -/
  | wrI8MsbS
  /-- `WR.U16.LSB`, R248. -/
  | wrU16Lsb
  /-- `WR.U16.LSB.S`, R249. -/
  | wrU16LsbS
  /-- `WR.U16.MSB`, R250. -/
  | wrU16Msb
  /-- `WR.U16.MSB.S`, R251. -/
  | wrU16MsbS
  /-- `WR.I16.LSB`, R252. -/
  | wrI16Lsb
  /-- `WR.I16.LSB.S`, R253. -/
  | wrI16LsbS
  /-- `WR.I16.MSB`, R254. -/
  | wrI16Msb
  /-- `WR.I16.MSB.S`, R255. -/
  | wrI16MsbS
  /-- `WR.U32.LSB`, R256. -/
  | wrU32Lsb
  /-- `WR.U32.LSB.S`, R257. -/
  | wrU32LsbS
  /-- `WR.U32.MSB`, R258. -/
  | wrU32Msb
  /-- `WR.U32.MSB.S`, R259. -/
  | wrU32MsbS
  /-- `WR.I32.LSB`, R260. -/
  | wrI32Lsb
  /-- `WR.I32.LSB.S`, R261. -/
  | wrI32LsbS
  /-- `WR.I32.MSB`, R262. -/
  | wrI32Msb
  /-- `WR.I32.MSB.S`, R263. -/
  | wrI32MsbS
  /-- `WR.U64.LSB`, R264. -/
  | wrU64Lsb
  /-- `WR.U64.LSB.S`, R265. -/
  | wrU64LsbS
  /-- `WR.U64.MSB`, R266. -/
  | wrU64Msb
  /-- `WR.U64.MSB.S`, R267. -/
  | wrU64MsbS
  /-- `WR.I64.LSB`, R268. -/
  | wrI64Lsb
  /-- `WR.I64.LSB.S`, R269. -/
  | wrI64LsbS
  /-- `WR.I64.MSB`, R270. -/
  | wrI64Msb
  /-- `WR.I64.MSB.S`, R271. -/
  | wrI64MsbS
  /-- `WR.UP.LSB`, R272. -/
  | wrUPLsb
  /-- `WR.UP.LSB.S`, R273. -/
  | wrUPLsbS
  /-- `WR.UP.MSB`, R274. -/
  | wrUPMsb
  /-- `WR.UP.MSB.S`, R275. -/
  | wrUPMsbS
  /-- `WR.IP.LSB`, R276. -/
  | wrIPLsb
  /-- `WR.IP.LSB.S`, R277. -/
  | wrIPLsbS
  /-- `WR.IP.MSB`, R278. -/
  | wrIPMsb
  /-- `WR.IP.MSB.S`, R279. -/
  | wrIPMsbS
  /-- `RDBIT.LSB`, R291. -/
  | rdbitLsb
  /-- `RDBIT.MSB`, R292. -/
  | rdbitMsb
  /-- `WRBIT.LSB`, R293. -/
  | wrbitLsb
  /-- `WRBIT.MSB`, R294. -/
  | wrbitMsb
  /-- `CRD.U8.LSB`, R305. -/
  | crdU8Lsb
  /-- `CRD.U8.MSB`, R306. -/
  | crdU8Msb
  /-- `CRD.I8.LSB`, R307. -/
  | crdI8Lsb
  /-- `CRD.I8.MSB`, R308. -/
  | crdI8Msb
  /-- `CRD.U16.LSB`, R309. -/
  | crdU16Lsb
  /-- `CRD.U16.MSB`, R310. -/
  | crdU16Msb
  /-- `CRD.I16.LSB`, R311. -/
  | crdI16Lsb
  /-- `CRD.I16.MSB`, R312. -/
  | crdI16Msb
  /-- `CRD.U32.LSB`, R313. -/
  | crdU32Lsb
  /-- `CRD.U32.MSB`, R314. -/
  | crdU32Msb
  /-- `CRD.I32.LSB`, R315. -/
  | crdI32Lsb
  /-- `CRD.I32.MSB`, R316. -/
  | crdI32Msb
  /-- `CRD.U64.LSB`, R317. -/
  | crdU64Lsb
  /-- `CRD.U64.MSB`, R318. -/
  | crdU64Msb
  /-- `CRD.I64.LSB`, R319. -/
  | crdI64Lsb
  /-- `CRD.I64.MSB`, R320. -/
  | crdI64Msb
  /-- `CRD.UP.LSB`, R321. -/
  | crdUPLsb
  /-- `CRD.UP.MSB`, R322. -/
  | crdUPMsb
  /-- `CRD.IP.LSB`, R323. -/
  | crdIPLsb
  /-- `CRD.IP.MSB`, R324. -/
  | crdIPMsb
  /-- `CWR.U8.LSB`, R325. -/
  | cwrU8Lsb
  /-- `CWR.U8.MSB`, R326. -/
  | cwrU8Msb
  /-- `CWR.I8.LSB`, R327. -/
  | cwrI8Lsb
  /-- `CWR.I8.MSB`, R328. -/
  | cwrI8Msb
  /-- `CWR.U16.LSB`, R329. -/
  | cwrU16Lsb
  /-- `CWR.U16.MSB`, R330. -/
  | cwrU16Msb
  /-- `CWR.I16.LSB`, R331. -/
  | cwrI16Lsb
  /-- `CWR.I16.MSB`, R332. -/
  | cwrI16Msb
  /-- `CWR.U32.LSB`, R333. -/
  | cwrU32Lsb
  /-- `CWR.U32.MSB`, R334. -/
  | cwrU32Msb
  /-- `CWR.I32.LSB`, R335. -/
  | cwrI32Lsb
  /-- `CWR.I32.MSB`, R336. -/
  | cwrI32Msb
  /-- `CWR.U64.LSB`, R337. -/
  | cwrU64Lsb
  /-- `CWR.U64.MSB`, R338. -/
  | cwrU64Msb
  /-- `CWR.I64.LSB`, R339. -/
  | cwrI64Lsb
  /-- `CWR.I64.MSB`, R340. -/
  | cwrI64Msb
  /-- `CWR.UP.LSB`, R341. -/
  | cwrUPLsb
  /-- `CWR.UP.MSB`, R342. -/
  | cwrUPMsb
  /-- `CWR.IP.LSB`, R343. -/
  | cwrIPLsb
  /-- `CWR.IP.MSB`, R344. -/
  | cwrIPMsb
  /-- `CRDBIT.LSB`, R345. -/
  | crdbitLsb
  /-- `CRDBIT.MSB`, R346. -/
  | crdbitMsb
  /-- `CWRBIT.LSB`, R347. -/
  | cwrbitLsb
  /-- `CWRBIT.MSB`, R348. -/
  | cwrbitMsb
  /-- `SEEK.BEGIN`, R350. -/
  | seekBegin
  /-- `SEEK.CUR`, R351. -/
  | seekCur
  /-- `SEEK.END`, R352. -/
  | seekEnd
  /-- `BIND`, R370. -/
  | bind
  deriving DecidableEq, Repr

end Sys2Proof
end

