-- ==== Sys2Proof/WellFormed.lean ====
section
/-! DEFINITION. Which command-word fields are legal (30_encoding.md R109): the checks of the decode
pseudocode R110, one definition each, in its order. A command as `Instr` has no operand that could be
ill-formed; what can be ill-formed is a word's fields. -/

namespace Sys2Proof

/-- R108: bits 31:12 are 0. -/
def Fields.reservedClear (f : Fields) : Bool := f.rsv == 0

/-- R102: `OP` is one of 0x1 to 0xA. -/
def Fields.opDefined (f : Fields) : Bool := 1 ≤ f.op.toNat && f.op.toNat ≤ 10

/-- `OP` is RD, WR, CRD or CWR, the multi-bit commands (R102). -/
def Fields.multiBit (f : Fields) : Bool := f.op == 1 || f.op == 2 || f.op == 5 || f.op == 6

/-- R104: the width class of a multi-bit command is 000 to 100. -/
def Fields.widDefined (f : Fields) : Bool := !f.multiBit || f.wid.toNat ≤ 4

/-- R104, R105: `WID` and `SGN` of every other command are 0. -/
def Fields.widSgnClear (f : Fields) : Bool := f.multiBit || (f.wid == 0 && f.sgn == 0)

/-- R106: `SRC` is 0 but for RD and WR. -/
def Fields.srcAllowed (f : Fields) : Bool := f.op == 1 || f.op == 2 || f.src == 0

/-- R107: `ORG` is 0 but for SEEK. -/
def Fields.orgClear (f : Fields) : Bool := f.op == 9 || f.org == 0

/-- R107: `ORG` = 11 is reserved for SEEK. -/
def Fields.seekOrgDefined (f : Fields) : Bool := !(f.op == 9) || !(f.org == 3)

/-- R103: SEEK and BIND require `ORD` = 0. -/
def Fields.ordAllowed (f : Fields) : Bool := !(f.op == 9 || f.op == 10) || f.ord == 0

/-- The legal field combinations, the table of R109. -/
def Fields.wf (f : Fields) : Bool :=
  f.reservedClear && f.opDefined && f.widDefined && f.widSgnClear && f.srcAllowed && f.orgClear &&
    f.seekOrgDefined && f.ordAllowed

end Sys2Proof
end

