-- ==== Sys2Proof/Decode.lean ====
section
/-! DEFINITION. Decoding a command word, total and rejecting by name (30_encoding.md R100, R110), and
encoding a command from the field table (R101, R118). The decoder checks the fields and dispatches on
them; the encoder writes each command's fields out row by row, so that neither is made from the other. -/

namespace Sys2Proof

/-- Why a word is illegal: the checks of R110, in its order. Every one raises ILLEGAL_COMMAND (R113). -/
inductive DecodeError where
  /-- A bit of 31:12 is set (R108). -/
  | reservedBitsSet
  /-- `OP` is 0x0 or 0xB to 0xF (R102). -/
  | reservedOp
  /-- `WID` of a multi-bit command is above 100 (R104). -/
  | reservedWidth
  /-- `WID` or `SGN` is set in a command that has neither (R104, R105). -/
  | widthOrSignSet
  /-- `SRC` is set in a command other than RD and WR (R106). -/
  | sourceSet
  /-- `ORG` is set in a command other than SEEK (R107). -/
  | originSet
  /-- `ORG` is 11 in SEEK (R107). -/
  | reservedOrigin
  /-- `ORD` is set in SEEK or BIND (R103). -/
  | orderSet
  deriving DecidableEq, Repr

/-- The fields of a command word (R101). -/
def Fields.ofWord (c : Word32) : Fields :=
  { op := c.extractLsb' 0 4, ord := c.extractLsb' 4 1, wid := c.extractLsb' 5 3
    sgn := c.extractLsb' 8 1, src := c.extractLsb' 9 1, org := c.extractLsb' 10 2
    rsv := c.extractLsb' 12 20 }

/-- The command word of given fields (R101, R118). -/
def Fields.toWord (f : Fields) : Word32 :=
  f.op.setWidth 32 ||| (f.ord.setWidth 32 <<< 4) ||| (f.wid.setWidth 32 <<< 5) |||
    (f.sgn.setWidth 32 <<< 8) ||| (f.src.setWidth 32 <<< 9) ||| (f.org.setWidth 32 <<< 10) |||
    (f.rsv.setWidth 32 <<< 12)

/-- The first check of R110 that the fields fail. -/
def Fields.check (f : Fields) : Option DecodeError :=
  if !f.reservedClear then some .reservedBitsSet
  else if !f.opDefined then some .reservedOp
  else if !f.widDefined then some .reservedWidth
  else if !f.widSgnClear then some .widthOrSignSet
  else if !f.srcAllowed then some .sourceSet
  else if !f.orgClear then some .originSet
  else if !f.seekOrgDefined then some .reservedOrigin
  else if !f.ordAllowed then some .orderSet
  else none

/-- The RD commands by their parameters (R115): `RD.<T>.<O>` and `RD.<T>.<O>.S`. -/
def Instr.read (w : WidthClass) (g : Sign) (o : Order) (k : Source) : Instr :=
  match w, g, o, k with
  | .w8, .unsigned, .lsb, .window => .rdU8Lsb
  | .w8, .unsigned, .lsb, .scalar => .rdU8LsbS
  | .w8, .unsigned, .msb, .window => .rdU8Msb
  | .w8, .unsigned, .msb, .scalar => .rdU8MsbS
  | .w8, .signed, .lsb, .window => .rdI8Lsb
  | .w8, .signed, .lsb, .scalar => .rdI8LsbS
  | .w8, .signed, .msb, .window => .rdI8Msb
  | .w8, .signed, .msb, .scalar => .rdI8MsbS
  | .w16, .unsigned, .lsb, .window => .rdU16Lsb
  | .w16, .unsigned, .lsb, .scalar => .rdU16LsbS
  | .w16, .unsigned, .msb, .window => .rdU16Msb
  | .w16, .unsigned, .msb, .scalar => .rdU16MsbS
  | .w16, .signed, .lsb, .window => .rdI16Lsb
  | .w16, .signed, .lsb, .scalar => .rdI16LsbS
  | .w16, .signed, .msb, .window => .rdI16Msb
  | .w16, .signed, .msb, .scalar => .rdI16MsbS
  | .w32, .unsigned, .lsb, .window => .rdU32Lsb
  | .w32, .unsigned, .lsb, .scalar => .rdU32LsbS
  | .w32, .unsigned, .msb, .window => .rdU32Msb
  | .w32, .unsigned, .msb, .scalar => .rdU32MsbS
  | .w32, .signed, .lsb, .window => .rdI32Lsb
  | .w32, .signed, .lsb, .scalar => .rdI32LsbS
  | .w32, .signed, .msb, .window => .rdI32Msb
  | .w32, .signed, .msb, .scalar => .rdI32MsbS
  | .w64, .unsigned, .lsb, .window => .rdU64Lsb
  | .w64, .unsigned, .lsb, .scalar => .rdU64LsbS
  | .w64, .unsigned, .msb, .window => .rdU64Msb
  | .w64, .unsigned, .msb, .scalar => .rdU64MsbS
  | .w64, .signed, .lsb, .window => .rdI64Lsb
  | .w64, .signed, .lsb, .scalar => .rdI64LsbS
  | .w64, .signed, .msb, .window => .rdI64Msb
  | .w64, .signed, .msb, .scalar => .rdI64MsbS
  | .ptr, .unsigned, .lsb, .window => .rdUPLsb
  | .ptr, .unsigned, .lsb, .scalar => .rdUPLsbS
  | .ptr, .unsigned, .msb, .window => .rdUPMsb
  | .ptr, .unsigned, .msb, .scalar => .rdUPMsbS
  | .ptr, .signed, .lsb, .window => .rdIPLsb
  | .ptr, .signed, .lsb, .scalar => .rdIPLsbS
  | .ptr, .signed, .msb, .window => .rdIPMsb
  | .ptr, .signed, .msb, .scalar => .rdIPMsbS

/-- The WR commands by their parameters (R115): `WR.<T>.<O>` and `WR.<T>.<O>.S`. -/
def Instr.write (w : WidthClass) (g : Sign) (o : Order) (k : Source) : Instr :=
  match w, g, o, k with
  | .w8, .unsigned, .lsb, .window => .wrU8Lsb
  | .w8, .unsigned, .lsb, .scalar => .wrU8LsbS
  | .w8, .unsigned, .msb, .window => .wrU8Msb
  | .w8, .unsigned, .msb, .scalar => .wrU8MsbS
  | .w8, .signed, .lsb, .window => .wrI8Lsb
  | .w8, .signed, .lsb, .scalar => .wrI8LsbS
  | .w8, .signed, .msb, .window => .wrI8Msb
  | .w8, .signed, .msb, .scalar => .wrI8MsbS
  | .w16, .unsigned, .lsb, .window => .wrU16Lsb
  | .w16, .unsigned, .lsb, .scalar => .wrU16LsbS
  | .w16, .unsigned, .msb, .window => .wrU16Msb
  | .w16, .unsigned, .msb, .scalar => .wrU16MsbS
  | .w16, .signed, .lsb, .window => .wrI16Lsb
  | .w16, .signed, .lsb, .scalar => .wrI16LsbS
  | .w16, .signed, .msb, .window => .wrI16Msb
  | .w16, .signed, .msb, .scalar => .wrI16MsbS
  | .w32, .unsigned, .lsb, .window => .wrU32Lsb
  | .w32, .unsigned, .lsb, .scalar => .wrU32LsbS
  | .w32, .unsigned, .msb, .window => .wrU32Msb
  | .w32, .unsigned, .msb, .scalar => .wrU32MsbS
  | .w32, .signed, .lsb, .window => .wrI32Lsb
  | .w32, .signed, .lsb, .scalar => .wrI32LsbS
  | .w32, .signed, .msb, .window => .wrI32Msb
  | .w32, .signed, .msb, .scalar => .wrI32MsbS
  | .w64, .unsigned, .lsb, .window => .wrU64Lsb
  | .w64, .unsigned, .lsb, .scalar => .wrU64LsbS
  | .w64, .unsigned, .msb, .window => .wrU64Msb
  | .w64, .unsigned, .msb, .scalar => .wrU64MsbS
  | .w64, .signed, .lsb, .window => .wrI64Lsb
  | .w64, .signed, .lsb, .scalar => .wrI64LsbS
  | .w64, .signed, .msb, .window => .wrI64Msb
  | .w64, .signed, .msb, .scalar => .wrI64MsbS
  | .ptr, .unsigned, .lsb, .window => .wrUPLsb
  | .ptr, .unsigned, .lsb, .scalar => .wrUPLsbS
  | .ptr, .unsigned, .msb, .window => .wrUPMsb
  | .ptr, .unsigned, .msb, .scalar => .wrUPMsbS
  | .ptr, .signed, .lsb, .window => .wrIPLsb
  | .ptr, .signed, .lsb, .scalar => .wrIPLsbS
  | .ptr, .signed, .msb, .window => .wrIPMsb
  | .ptr, .signed, .msb, .scalar => .wrIPMsbS

/-- The CRD commands by their parameters (R115): `CRD.<T>.<O>`. -/
def Instr.cursorRead (w : WidthClass) (g : Sign) (o : Order) : Instr :=
  match w, g, o with
  | .w8, .unsigned, .lsb => .crdU8Lsb
  | .w8, .unsigned, .msb => .crdU8Msb
  | .w8, .signed, .lsb => .crdI8Lsb
  | .w8, .signed, .msb => .crdI8Msb
  | .w16, .unsigned, .lsb => .crdU16Lsb
  | .w16, .unsigned, .msb => .crdU16Msb
  | .w16, .signed, .lsb => .crdI16Lsb
  | .w16, .signed, .msb => .crdI16Msb
  | .w32, .unsigned, .lsb => .crdU32Lsb
  | .w32, .unsigned, .msb => .crdU32Msb
  | .w32, .signed, .lsb => .crdI32Lsb
  | .w32, .signed, .msb => .crdI32Msb
  | .w64, .unsigned, .lsb => .crdU64Lsb
  | .w64, .unsigned, .msb => .crdU64Msb
  | .w64, .signed, .lsb => .crdI64Lsb
  | .w64, .signed, .msb => .crdI64Msb
  | .ptr, .unsigned, .lsb => .crdUPLsb
  | .ptr, .unsigned, .msb => .crdUPMsb
  | .ptr, .signed, .lsb => .crdIPLsb
  | .ptr, .signed, .msb => .crdIPMsb

/-- The CWR commands by their parameters (R115): `CWR.<T>.<O>`. -/
def Instr.cursorWrite (w : WidthClass) (g : Sign) (o : Order) : Instr :=
  match w, g, o with
  | .w8, .unsigned, .lsb => .cwrU8Lsb
  | .w8, .unsigned, .msb => .cwrU8Msb
  | .w8, .signed, .lsb => .cwrI8Lsb
  | .w8, .signed, .msb => .cwrI8Msb
  | .w16, .unsigned, .lsb => .cwrU16Lsb
  | .w16, .unsigned, .msb => .cwrU16Msb
  | .w16, .signed, .lsb => .cwrI16Lsb
  | .w16, .signed, .msb => .cwrI16Msb
  | .w32, .unsigned, .lsb => .cwrU32Lsb
  | .w32, .unsigned, .msb => .cwrU32Msb
  | .w32, .signed, .lsb => .cwrI32Lsb
  | .w32, .signed, .msb => .cwrI32Msb
  | .w64, .unsigned, .lsb => .cwrU64Lsb
  | .w64, .unsigned, .msb => .cwrU64Msb
  | .w64, .signed, .lsb => .cwrI64Lsb
  | .w64, .signed, .msb => .cwrI64Msb
  | .ptr, .unsigned, .lsb => .cwrUPLsb
  | .ptr, .unsigned, .msb => .cwrUPMsb
  | .ptr, .signed, .lsb => .cwrIPLsb
  | .ptr, .signed, .msb => .cwrIPMsb

/-- `RDBIT.<O>` by its order (R115). -/
def Instr.readBit (o : Order) : Instr :=
  match o with
  | .lsb => .rdbitLsb
  | .msb => .rdbitMsb

/-- `WRBIT.<O>` by its order (R115). -/
def Instr.writeBit (o : Order) : Instr :=
  match o with
  | .lsb => .wrbitLsb
  | .msb => .wrbitMsb

/-- `CRDBIT.<O>` by its order (R115). -/
def Instr.cursorReadBit (o : Order) : Instr :=
  match o with
  | .lsb => .crdbitLsb
  | .msb => .crdbitMsb

/-- `CWRBIT.<O>` by its order (R115). -/
def Instr.cursorWriteBit (o : Order) : Instr :=
  match o with
  | .lsb => .cwrbitLsb
  | .msb => .cwrbitMsb

/-- `SEEK.BEGIN`, `SEEK.CUR`, `SEEK.END` by their origin (R107, R115). -/
def Instr.seek (g : Origin) : Instr :=
  match g with
  | .begin => .seekBegin
  | .current => .seekCur
  | .fromEnd => .seekEnd

/-- `ORD` (R103). -/
def Order.ofBit (b : BitVec 1) : Order := if b = 0 then .lsb else .msb

/-- `WID` (R104); 101, 110 and 111 do not reach this (R113). -/
def WidthClass.ofBits (b : BitVec 3) : WidthClass :=
  if b = 0 then .w8 else if b = 1 then .w16 else if b = 2 then .w32 else if b = 3 then .w64 else .ptr

/-- `SGN` (R105). -/
def Sign.ofBit (b : BitVec 1) : Sign := if b = 0 then .unsigned else .signed

/-- `SRC` (R106). -/
def Source.ofBit (b : BitVec 1) : Source := if b = 0 then .window else .scalar

/-- `ORG` (R107); 11 does not reach this (R113). -/
def Origin.ofBits (b : BitVec 2) : Origin :=
  if b = 0 then .begin else if b = 1 then .current else .fromEnd

/-- The command of checked fields: the operation table R102. A reserved `OP` does not reach this. -/
def Fields.dispatch (f : Fields) : Option Instr :=
  let w := WidthClass.ofBits f.wid
  let g := Sign.ofBit f.sgn
  let o := Order.ofBit f.ord
  match f.op.toNat with
  | 1 => some (Instr.read w g o (Source.ofBit f.src))
  | 2 => some (Instr.write w g o (Source.ofBit f.src))
  | 3 => some (Instr.readBit o)
  | 4 => some (Instr.writeBit o)
  | 5 => some (Instr.cursorRead w g o)
  | 6 => some (Instr.cursorWrite w g o)
  | 7 => some (Instr.cursorReadBit o)
  | 8 => some (Instr.cursorWriteBit o)
  | 9 => some (Instr.seek (Origin.ofBits f.org))
  | 10 => some .bind
  | _ => none

/-- Decode a command word (R110). Total; an illegal word is rejected by name. -/
def decode (c : Word32) : Except DecodeError Instr :=
  let f := Fields.ofWord c
  match f.check with
  | some e => .error e
  | none =>
    match f.dispatch with
    | some i => .ok i
    | none => .error .reservedOp

/-- What the decoder reads, without the reason of a rejection. -/
def decode? (c : Word32) : Option Instr :=
  match decode c with
  | .ok i => some i
  | .error _ => none

/-- The instruction the decoder reads from a table row's word: `nbits` of the table's bits, every bit
above them 0. A command is one 32-bit word, stored as it is written to `CMD` (R100). -/
def decodeTableWord (nbits w : Nat) : Option Instr :=
  decode? (BitVec.ofNat 32 (w % 2 ^ nbits))

/-- The fields of each command, as the encoding tables give them (R101 to R107), in the order `op`,
`ord`, `wid`, `sgn`, `src`, `org`, `rsv`. -/
def Instr.fields : Instr → Fields
  | .rdU8Lsb => ⟨1, 0, 0, 0, 0, 0, 0⟩
  | .rdU8LsbS => ⟨1, 0, 0, 0, 1, 0, 0⟩
  | .rdU8Msb => ⟨1, 1, 0, 0, 0, 0, 0⟩
  | .rdU8MsbS => ⟨1, 1, 0, 0, 1, 0, 0⟩
  | .rdI8Lsb => ⟨1, 0, 0, 1, 0, 0, 0⟩
  | .rdI8LsbS => ⟨1, 0, 0, 1, 1, 0, 0⟩
  | .rdI8Msb => ⟨1, 1, 0, 1, 0, 0, 0⟩
  | .rdI8MsbS => ⟨1, 1, 0, 1, 1, 0, 0⟩
  | .rdU16Lsb => ⟨1, 0, 1, 0, 0, 0, 0⟩
  | .rdU16LsbS => ⟨1, 0, 1, 0, 1, 0, 0⟩
  | .rdU16Msb => ⟨1, 1, 1, 0, 0, 0, 0⟩
  | .rdU16MsbS => ⟨1, 1, 1, 0, 1, 0, 0⟩
  | .rdI16Lsb => ⟨1, 0, 1, 1, 0, 0, 0⟩
  | .rdI16LsbS => ⟨1, 0, 1, 1, 1, 0, 0⟩
  | .rdI16Msb => ⟨1, 1, 1, 1, 0, 0, 0⟩
  | .rdI16MsbS => ⟨1, 1, 1, 1, 1, 0, 0⟩
  | .rdU32Lsb => ⟨1, 0, 2, 0, 0, 0, 0⟩
  | .rdU32LsbS => ⟨1, 0, 2, 0, 1, 0, 0⟩
  | .rdU32Msb => ⟨1, 1, 2, 0, 0, 0, 0⟩
  | .rdU32MsbS => ⟨1, 1, 2, 0, 1, 0, 0⟩
  | .rdI32Lsb => ⟨1, 0, 2, 1, 0, 0, 0⟩
  | .rdI32LsbS => ⟨1, 0, 2, 1, 1, 0, 0⟩
  | .rdI32Msb => ⟨1, 1, 2, 1, 0, 0, 0⟩
  | .rdI32MsbS => ⟨1, 1, 2, 1, 1, 0, 0⟩
  | .rdU64Lsb => ⟨1, 0, 3, 0, 0, 0, 0⟩
  | .rdU64LsbS => ⟨1, 0, 3, 0, 1, 0, 0⟩
  | .rdU64Msb => ⟨1, 1, 3, 0, 0, 0, 0⟩
  | .rdU64MsbS => ⟨1, 1, 3, 0, 1, 0, 0⟩
  | .rdI64Lsb => ⟨1, 0, 3, 1, 0, 0, 0⟩
  | .rdI64LsbS => ⟨1, 0, 3, 1, 1, 0, 0⟩
  | .rdI64Msb => ⟨1, 1, 3, 1, 0, 0, 0⟩
  | .rdI64MsbS => ⟨1, 1, 3, 1, 1, 0, 0⟩
  | .rdUPLsb => ⟨1, 0, 4, 0, 0, 0, 0⟩
  | .rdUPLsbS => ⟨1, 0, 4, 0, 1, 0, 0⟩
  | .rdUPMsb => ⟨1, 1, 4, 0, 0, 0, 0⟩
  | .rdUPMsbS => ⟨1, 1, 4, 0, 1, 0, 0⟩
  | .rdIPLsb => ⟨1, 0, 4, 1, 0, 0, 0⟩
  | .rdIPLsbS => ⟨1, 0, 4, 1, 1, 0, 0⟩
  | .rdIPMsb => ⟨1, 1, 4, 1, 0, 0, 0⟩
  | .rdIPMsbS => ⟨1, 1, 4, 1, 1, 0, 0⟩
  | .wrU8Lsb => ⟨2, 0, 0, 0, 0, 0, 0⟩
  | .wrU8LsbS => ⟨2, 0, 0, 0, 1, 0, 0⟩
  | .wrU8Msb => ⟨2, 1, 0, 0, 0, 0, 0⟩
  | .wrU8MsbS => ⟨2, 1, 0, 0, 1, 0, 0⟩
  | .wrI8Lsb => ⟨2, 0, 0, 1, 0, 0, 0⟩
  | .wrI8LsbS => ⟨2, 0, 0, 1, 1, 0, 0⟩
  | .wrI8Msb => ⟨2, 1, 0, 1, 0, 0, 0⟩
  | .wrI8MsbS => ⟨2, 1, 0, 1, 1, 0, 0⟩
  | .wrU16Lsb => ⟨2, 0, 1, 0, 0, 0, 0⟩
  | .wrU16LsbS => ⟨2, 0, 1, 0, 1, 0, 0⟩
  | .wrU16Msb => ⟨2, 1, 1, 0, 0, 0, 0⟩
  | .wrU16MsbS => ⟨2, 1, 1, 0, 1, 0, 0⟩
  | .wrI16Lsb => ⟨2, 0, 1, 1, 0, 0, 0⟩
  | .wrI16LsbS => ⟨2, 0, 1, 1, 1, 0, 0⟩
  | .wrI16Msb => ⟨2, 1, 1, 1, 0, 0, 0⟩
  | .wrI16MsbS => ⟨2, 1, 1, 1, 1, 0, 0⟩
  | .wrU32Lsb => ⟨2, 0, 2, 0, 0, 0, 0⟩
  | .wrU32LsbS => ⟨2, 0, 2, 0, 1, 0, 0⟩
  | .wrU32Msb => ⟨2, 1, 2, 0, 0, 0, 0⟩
  | .wrU32MsbS => ⟨2, 1, 2, 0, 1, 0, 0⟩
  | .wrI32Lsb => ⟨2, 0, 2, 1, 0, 0, 0⟩
  | .wrI32LsbS => ⟨2, 0, 2, 1, 1, 0, 0⟩
  | .wrI32Msb => ⟨2, 1, 2, 1, 0, 0, 0⟩
  | .wrI32MsbS => ⟨2, 1, 2, 1, 1, 0, 0⟩
  | .wrU64Lsb => ⟨2, 0, 3, 0, 0, 0, 0⟩
  | .wrU64LsbS => ⟨2, 0, 3, 0, 1, 0, 0⟩
  | .wrU64Msb => ⟨2, 1, 3, 0, 0, 0, 0⟩
  | .wrU64MsbS => ⟨2, 1, 3, 0, 1, 0, 0⟩
  | .wrI64Lsb => ⟨2, 0, 3, 1, 0, 0, 0⟩
  | .wrI64LsbS => ⟨2, 0, 3, 1, 1, 0, 0⟩
  | .wrI64Msb => ⟨2, 1, 3, 1, 0, 0, 0⟩
  | .wrI64MsbS => ⟨2, 1, 3, 1, 1, 0, 0⟩
  | .wrUPLsb => ⟨2, 0, 4, 0, 0, 0, 0⟩
  | .wrUPLsbS => ⟨2, 0, 4, 0, 1, 0, 0⟩
  | .wrUPMsb => ⟨2, 1, 4, 0, 0, 0, 0⟩
  | .wrUPMsbS => ⟨2, 1, 4, 0, 1, 0, 0⟩
  | .wrIPLsb => ⟨2, 0, 4, 1, 0, 0, 0⟩
  | .wrIPLsbS => ⟨2, 0, 4, 1, 1, 0, 0⟩
  | .wrIPMsb => ⟨2, 1, 4, 1, 0, 0, 0⟩
  | .wrIPMsbS => ⟨2, 1, 4, 1, 1, 0, 0⟩
  | .rdbitLsb => ⟨3, 0, 0, 0, 0, 0, 0⟩
  | .rdbitMsb => ⟨3, 1, 0, 0, 0, 0, 0⟩
  | .wrbitLsb => ⟨4, 0, 0, 0, 0, 0, 0⟩
  | .wrbitMsb => ⟨4, 1, 0, 0, 0, 0, 0⟩
  | .crdU8Lsb => ⟨5, 0, 0, 0, 0, 0, 0⟩
  | .crdU8Msb => ⟨5, 1, 0, 0, 0, 0, 0⟩
  | .crdI8Lsb => ⟨5, 0, 0, 1, 0, 0, 0⟩
  | .crdI8Msb => ⟨5, 1, 0, 1, 0, 0, 0⟩
  | .crdU16Lsb => ⟨5, 0, 1, 0, 0, 0, 0⟩
  | .crdU16Msb => ⟨5, 1, 1, 0, 0, 0, 0⟩
  | .crdI16Lsb => ⟨5, 0, 1, 1, 0, 0, 0⟩
  | .crdI16Msb => ⟨5, 1, 1, 1, 0, 0, 0⟩
  | .crdU32Lsb => ⟨5, 0, 2, 0, 0, 0, 0⟩
  | .crdU32Msb => ⟨5, 1, 2, 0, 0, 0, 0⟩
  | .crdI32Lsb => ⟨5, 0, 2, 1, 0, 0, 0⟩
  | .crdI32Msb => ⟨5, 1, 2, 1, 0, 0, 0⟩
  | .crdU64Lsb => ⟨5, 0, 3, 0, 0, 0, 0⟩
  | .crdU64Msb => ⟨5, 1, 3, 0, 0, 0, 0⟩
  | .crdI64Lsb => ⟨5, 0, 3, 1, 0, 0, 0⟩
  | .crdI64Msb => ⟨5, 1, 3, 1, 0, 0, 0⟩
  | .crdUPLsb => ⟨5, 0, 4, 0, 0, 0, 0⟩
  | .crdUPMsb => ⟨5, 1, 4, 0, 0, 0, 0⟩
  | .crdIPLsb => ⟨5, 0, 4, 1, 0, 0, 0⟩
  | .crdIPMsb => ⟨5, 1, 4, 1, 0, 0, 0⟩
  | .cwrU8Lsb => ⟨6, 0, 0, 0, 0, 0, 0⟩
  | .cwrU8Msb => ⟨6, 1, 0, 0, 0, 0, 0⟩
  | .cwrI8Lsb => ⟨6, 0, 0, 1, 0, 0, 0⟩
  | .cwrI8Msb => ⟨6, 1, 0, 1, 0, 0, 0⟩
  | .cwrU16Lsb => ⟨6, 0, 1, 0, 0, 0, 0⟩
  | .cwrU16Msb => ⟨6, 1, 1, 0, 0, 0, 0⟩
  | .cwrI16Lsb => ⟨6, 0, 1, 1, 0, 0, 0⟩
  | .cwrI16Msb => ⟨6, 1, 1, 1, 0, 0, 0⟩
  | .cwrU32Lsb => ⟨6, 0, 2, 0, 0, 0, 0⟩
  | .cwrU32Msb => ⟨6, 1, 2, 0, 0, 0, 0⟩
  | .cwrI32Lsb => ⟨6, 0, 2, 1, 0, 0, 0⟩
  | .cwrI32Msb => ⟨6, 1, 2, 1, 0, 0, 0⟩
  | .cwrU64Lsb => ⟨6, 0, 3, 0, 0, 0, 0⟩
  | .cwrU64Msb => ⟨6, 1, 3, 0, 0, 0, 0⟩
  | .cwrI64Lsb => ⟨6, 0, 3, 1, 0, 0, 0⟩
  | .cwrI64Msb => ⟨6, 1, 3, 1, 0, 0, 0⟩
  | .cwrUPLsb => ⟨6, 0, 4, 0, 0, 0, 0⟩
  | .cwrUPMsb => ⟨6, 1, 4, 0, 0, 0, 0⟩
  | .cwrIPLsb => ⟨6, 0, 4, 1, 0, 0, 0⟩
  | .cwrIPMsb => ⟨6, 1, 4, 1, 0, 0, 0⟩
  | .crdbitLsb => ⟨7, 0, 0, 0, 0, 0, 0⟩
  | .crdbitMsb => ⟨7, 1, 0, 0, 0, 0, 0⟩
  | .cwrbitLsb => ⟨8, 0, 0, 0, 0, 0, 0⟩
  | .cwrbitMsb => ⟨8, 1, 0, 0, 0, 0, 0⟩
  | .seekBegin => ⟨9, 0, 0, 0, 0, 0, 0⟩
  | .seekCur => ⟨9, 0, 0, 0, 0, 1, 0⟩
  | .seekEnd => ⟨9, 0, 0, 0, 0, 2, 0⟩
  | .bind => ⟨10, 0, 0, 0, 0, 0, 0⟩

/-- A command is well-formed when its fields are a legal combination of R109. -/
def Instr.wf (i : Instr) : Bool := i.fields.wf

/-- The command word of a command (R118). -/
def encode (i : Instr) : Word32 := i.fields.toWord

end Sys2Proof
end

