-- ==== Sys2Proof/Machine/State.lean ====
section
/-! DEFINITION. The machine's state as plain data (10_state.md R30): every register and bit of the
register map R33, the bound window R50, window memory, what the port errs on, and the host-side
actions still to come. `State.reset` is R57. -/

namespace Sys2Proof.Machine

/-- `STATUS.ERR`, the result codes of R382. Codes 8 to 15 are never produced and have no value here. -/
inductive ResultCode where
  /-- 0, every successful command. -/
  | ok
  /-- 1, an illegal command word (R383). -/
  | illegalCommand
  /-- 2, a multi-bit command's range checks (R384). -/
  | outOfRange
  /-- 3, a single-bit command's byte index (R388). -/
  | index
  /-- 4, a window command while no window is bound (R385). -/
  | nullBuffer
  /-- 5, BIND of too long a window (R389). -/
  | size
  /-- 6, the window port signals an error (R386). -/
  | busError
  /-- 7, reserved, never produced (R390). -/
  | notSupported
  deriving DecidableEq, Repr

/-- Width of a host access to a register. Only 32-bit ones are defined (R32). -/
inductive AccessWidth where
  | bits8
  | bits16
  | bits32
  | bits64
  deriving DecidableEq, Repr

/-- What the window port errs on (92 D24, 93 I14): the addresses whose byte reads, and whose byte
writes, it signals an error for. Platform behaviour, not block state (log 7). -/
structure Port where
  readErrs : List Nat
  writeErrs : List Nat
  deriving DecidableEq, Repr

/-- One host-side action: everything the world outside the block can do to it (R25, R32, R117). -/
inductive HostAction where
  /-- A write of a register at a byte offset from `REG_BASE` (R32); at 0x08 it issues a command (R34). -/
  | regWrite (width : AccessWidth) (offset : Nat) (data : Word32)
  /-- A read of a register at a byte offset from `REG_BASE` (R32). -/
  | regRead (width : AccessWidth) (offset : Nat)
  /-- The host stores a byte of window memory, which it owns (R25). -/
  | memWrite (addr : Nat) (value : Byte)
  /-- The host loads a byte of window memory (R25). -/
  | memRead (addr : Nat)
  /-- Reset is asserted between commands (R420). -/
  | reset
  /-- A command word is written to `CMD` and reset is asserted before the command ends (R421). -/
  | abandonedCommand (word : Word32)
  /-- A command word is written to `CMD`, and while it executes another agent writes the bytes at the
  given addresses, or they are memory the host has withdrawn (R92(d), R431, R432). -/
  | racedCommand (word : Word32) (addrs : List Nat)
  /-- The platform's memory changes what it errs on (R91, R432). -/
  | setPort (port : Port)
  deriving DecidableEq, Repr

/-- Window memory as (address, byte) pairs, addresses strictly rising, none equal to what an unlisted
address reads as (`Memory.wf` in Machine/Ops.lean). -/
abbrev Memory := List Host.Cell

/-- The machine's state. -/
structure State where
  /-- `PTR_W` and `ADDR_W`, read through `CAP` (R36); fixed for the device's life (R11). -/
  params : Params
  /-- `OFFSET`, R42. -/
  offset : Word32
  /-- `COUNT`, R43. -/
  count : Word32
  /-- `WDATA`, R44. -/
  wdata : Word64
  /-- `RDATA`, R45. -/
  rdata : Word64
  /-- `SCALAR`, R46. -/
  scalar : Word64
  /-- `POS`, R47. -/
  pos : Word32
  /-- `WBASE`, R49. -/
  wbase : Word64
  /-- `WLEN_REQ`, R49. -/
  wlenReq : Word32
  /-- `BOUND`, R50; mirrored in `STATUS.BOUND` (R39). -/
  bound : Bool
  /-- `WIN_BASE`, R50, zero-extended to 64 bits; always below `2^ADDR_W` (log 16). -/
  winBase : Word64
  /-- `WIN_LEN`, R50; always below `2^28`. -/
  winLen : Word32
  /-- `STATUS.ERR`, R38. -/
  err : ResultCode
  /-- `STATUS.STICKY`, R41. -/
  sticky : Bool
  /-- `STATUS.BUSY`, R40. -/
  busy : Bool
  /-- Window memory, R56: the host's, reached through the port. -/
  mem : Memory
  /-- What the window port errs on, 92 D24. -/
  port : Port
  /-- The MODEL's own: the addresses that another agent writes while the command in progress executes
  (R92(d)); empty between commands (log 22). -/
  raced : List Nat
  /-- The MODEL's own: how many free values have been used (log 13). -/
  freeCount : Nat
  /-- The MODEL's own: the host-side actions still to come, the next one first (log 3). -/
  hostQueue : List HostAction
  /-- The MODEL's own: the data the last host read returned (log 12). -/
  hostData : Word32
  deriving DecidableEq, Repr

/-- Why a step stops with a fault. No command does: a command's faults are result codes (R380). -/
inductive Fault where
  /-- Raised by a host access to window memory, or a race, at an address outside the `ADDR_W`-bit
  address space (R10, R56): the spec has no such byte. Safe: the model stops. -/
  | noSuchAddress
  deriving DecidableEq, Repr

/-- Why a step is refused. No command is: these are host-side duties the spec says a model refuses. -/
inductive Refusal where
  /-- Raised by an arm of `exec` for an instruction with no meaning yet. Safe: the model stops. -/
  | notModelled (mnemonic : String)
  /-- Raised by a host register access that is not a naturally aligned 32-bit one (R32, 93 I4: "a
  model refuses it"). Safe: the model stops. -/
  | hostAccessForm
  /-- Raised by a host access while BUSY = 1 other than a read of STATUS (R430, 93 I9: "a model has no
  step for it"). Safe: the model stops. -/
  | hostAccessWhileBusy
  deriving DecidableEq, Repr

/-- A device with parameters `p` right after power-on reset (R57, R420): every register at its reset
value, no window bound, nothing listed in window memory (log 1), a port that errs on nothing (log 7),
no host-side action to come (log 3). -/
def State.resetWith (p : Params) : State :=
  { params := p
    offset := 0, count := 0, wdata := 0, rdata := 0, scalar := 0, pos := 0, wbase := 0, wlenReq := 0
    bound := false, winBase := 0, winLen := 0
    err := .ok, sticky := false, busy := false
    mem := [], port := { readErrs := [], writeErrs := [] }, raced := []
    freeCount := 0, hostQueue := [], hostData := 0 }

/-- The machine right after reset (R57), as the instance `Config.defaultParams` (log 2). -/
def State.reset : State := State.resetWith Config.defaultParams

end Sys2Proof.Machine
end

