-- ==== Sys2Proof/Machine/Flags.lean ====
section
/-! DEFINITION. STATUS (10_state.md R37 to R41): the codes of ERR, the word the host reads, and the one
bit it can clear. No command sets a flag from the value it moves (R52). -/

namespace Sys2Proof.Machine

/-- The 4-bit code of a result (R382). -/
def ResultCode.code (c : ResultCode) : BitVec 4 :=
  match c with
  | .ok => 0
  | .illegalCommand => 1
  | .outOfRange => 2
  | .index => 3
  | .nullBuffer => 4
  | .size => 5
  | .busError => 6
  | .notSupported => 7

/-- A one-bit field in place `i` of a 32-bit word. -/
def flagAt (b : Bool) (i : Nat) : Word32 := (BitVec.ofBool b).setWidth 32 <<< i

/-- The STATUS word (R37): ERR in 3:0, BOUND in 4, BUSY in 5, STICKY in 8, the rest 0. -/
def statusWord (s : State) : Word32 :=
  s.err.code.setWidth 32 ||| flagAt s.bound 4 ||| flagAt s.busy 5 ||| flagAt s.sticky 8

/-- A host write of STATUS (R37, R38, R41): bit 8 = 1 clears STICKY, everything else is read-only.
This is also how the host acknowledges a fault (R395); there is no other return from one. -/
def writeStatus (s : State) (v : Word32) : State :=
  { s with sticky := s.sticky && !v.getLsbD 8 }

/-- The CAP word (R36): PTR64 in 0, ADDR_W in 14:8, LEN_LOG2 in 23:16, the rest 0. -/
def capWord (p : Params) : Word32 :=
  flagAt p.ptr64 0 ||| ((BitVec.ofNat 7 p.addrW).setWidth 32 <<< 8) |||
    ((BitVec.ofNat 8 Config.lenLog2).setWidth 32 <<< 16)

/-- `LENGTH` (R48): `WIN_LEN * 8` when bound, else 0. -/
def lengthWord (s : State) : Word32 := if s.bound then s.winLen * 8 else 0

end Sys2Proof.Machine
end

