-- ==== Sys2Proof/Machine/Bits.lean ====
section
/-! DEFINITION. Bit-field, extension and byte-order helpers (00_scope.md R16, R17, R19; 20_memory.md
R80). Lean's `<<<` and `>>>` on `BitVec` are the logical shifts of R16: a shift by the width or more
gives 0. -/

namespace Sys2Proof.Machine

/-- The `N`-bit word whose little-endian bytes are the list, the first least significant; bytes past
`N` bits are lost (R80). -/
def ofBytes (N : Nat) : List Byte → BitVec N
  | [] => 0
  | b :: bs => (ofBytes N bs <<< 8) ||| b.setWidth N

/-- The first `k` little-endian bytes of a word (R80). -/
def toBytes {N : Nat} (x : BitVec N) : Nat → List Byte
  | 0 => []
  | k + 1 => x.setWidth 8 :: toBytes (x >>> 8) k

/-- `REV_BYTES_N` (R19, R131): byte j of the result is byte N/8-1-j. -/
def revBytes {N : Nat} (x : BitVec N) : BitVec N := ofBytes N (toBytes x (N / 8)).reverse

/-- `REV_BITS_N` (R19): bit j of the result is bit N-1-j. -/
def revBits {N : Nat} (x : BitVec N) : BitVec N := x.reverse

/-- `REVB8_N` (R19, R132): the bits of each byte reversed, the bytes in place. -/
def revByteBits {N : Nat} (x : BitVec N) : BitVec N :=
  ofBytes N ((toBytes x (N / 8)).map BitVec.reverse)

/-- `ONES(N)` (R16). -/
def ones (N : Nat) : BitVec N := BitVec.allOnes N

/-- `trunc_n(v)` on a 64-bit value (R17). -/
def trunc (v : Word64) (n : Nat) : Word64 := (v.setWidth n).setWidth 64

/-- `sext_N(v, n)` (R17): the low `n` bits of `v`, bit n-1 copied up to width `N`; 0 at n = 0. -/
def sext (N : Nat) {M : Nat} (v : BitVec M) (n : Nat) : BitVec N := (v.setWidth n).signExtend N

end Sys2Proof.Machine
end

