-- ==== Sys2Proof/Machine/Masking.lean ====
section
/-! DEFINITION. The Masking Core and its masked-word stages (40_masking_core.md): extraction and
insertion in one staged word of width `SW`, for both bit orders; the choice of the staged width; the
two-word split of a 64-bit straddle; and the bit-by-bit reference reading R150. -/

namespace Sys2Proof.Machine

/-- `EXTRACT_LSB(S, o, n, SW)` (R134); 0 at n = 0 (R133). -/
def extractLsb {SW : Nat} (S : BitVec SW) (o n : Nat) : BitVec SW :=
  if n = 0 then 0 else (S <<< (SW - n - o)) >>> (SW - n)

/-- `EXTRACT_MSB(S, o, n, SW)` (R135); 0 at n = 0 (R133). -/
def extractMsb {SW : Nat} (S : BitVec SW) (o n : Nat) : BitVec SW :=
  if n = 0 then 0 else (revBytes S <<< o) >>> (SW - n)

/-- `m = ONES(SW) >> (SW - n)` (R136, R137). -/
def fieldMask (SW n : Nat) : BitVec SW := ones SW >>> (SW - n)

/-- `INSERT_LSB(S, o, v, n, SW)` (R136); `S` at n = 0 (R133). -/
def insertLsb {SW : Nat} (S : BitVec SW) (o : Nat) (v : BitVec SW) (n : Nat) : BitVec SW :=
  if n = 0 then S
  else
    let m := fieldMask SW n
    let M := m <<< o
    let V := (v &&& m) <<< o
    (S &&& ~~~M) ||| V

/-- `INSERT_MSB(S, o, v, n, SW)` (R137, with the mask R138 settles); `S` at n = 0 (R133). -/
def insertMsb {SW : Nat} (S : BitVec SW) (o : Nat) (v : BitVec SW) (n : Nat) : BitVec SW :=
  if n = 0 then S
  else
    let m := fieldMask SW n
    let M := revBytes (m <<< (SW - n - o))
    let V := revBytes ((v &&& m) <<< (SW - n - o))
    (S &&& ~~~M) ||| V

/-- The read side of the single-pass mask stage (R141), also the scalar read (R154). -/
def maskRead (ord : Order) {SW : Nat} (S : BitVec SW) (o n : Nat) : BitVec SW :=
  match ord with
  | .lsb => extractLsb S o n
  | .msb => extractMsb S o n

/-- The write side of the single-pass mask stage (R141), also the scalar write (R154). -/
def maskWrite (ord : Order) {SW : Nat} (S : BitVec SW) (o : Nat) (v : BitVec SW) (n : Nat) :
    BitVec SW :=
  match ord with
  | .lsb => insertLsb S o v n
  | .msb => insertMsb S o v n

/-- The two-word split read (R142, R143, R144): `c1` bits from `w0`, `c2` from `w1`. -/
def splitRead (ord : Order) (w0 w1 : Word64) (o n : Nat) : Word64 :=
  let c1 := 64 - o
  let c2 := n - c1
  match ord with
  | .lsb => extractLsb w0 o c1 ||| (extractLsb w1 0 c2 <<< c1)
  | .msb => (extractMsb w0 o c1 <<< c2) ||| extractMsb w1 0 c2

/-- The two-word split write (R142, R145, R146): the two new words. -/
def splitWrite (ord : Order) (w0 w1 : Word64) (o : Nat) (v : Word64) (n : Nat) : Word64 × Word64 :=
  let c1 := 64 - o
  let c2 := n - c1
  match ord with
  | .lsb => (insertLsb w0 o v c1, insertLsb w1 0 (v >>> c1) c2)
  | .msb => (insertMsb w0 o (v >>> c2) c1, insertMsb w1 0 (v &&& (ones c2).setWidth 64) c2)

/-- `FIELD_READ` on the bytes of the span (R140, R148): the staged width is `W`, or `2W` where the
field straddles, or the split where that would be 128. -/
def fieldRead (ord : Order) (W o n : Nat) (bytes : List Byte) : Word64 :=
  if n = 0 then 0
  else if o + n ≤ W then (maskRead ord (ofBytes W bytes) o n).setWidth 64
  else if 2 * W ≤ 64 then (maskRead ord (ofBytes (2 * W) bytes) o n).setWidth 64
  else splitRead ord (ofBytes 64 (bytes.take 8)) (ofBytes 64 (bytes.drop 8)) o n

/-- `FIELD_WRITE` on the bytes of the span (R140, R147, R149): the merged bytes, as many as staged. -/
def fieldWrite (ord : Order) (W o : Nat) (v : Word64) (n : Nat) (bytes : List Byte) : List Byte :=
  if n = 0 then bytes
  else if o + n ≤ W then
    toBytes (maskWrite ord (ofBytes W bytes) o (v.setWidth W) n) bytes.length
  else if 2 * W ≤ 64 then
    toBytes (maskWrite ord (ofBytes (2 * W) bytes) o (v.setWidth (2 * W)) n) bytes.length
  else
    let w := splitWrite ord (ofBytes 64 (bytes.take 8)) (ofBytes 64 (bytes.drop 8)) o v n
    toBytes w.1 8 ++ toBytes w.2 (bytes.length - 8)

/-- `bit(p)` of R150: the bit that position `p` names in bytes given by index (R22). -/
def streamBit (byte : Nat → Byte) (ord : Order) (p : Nat) : Bool :=
  match ord with
  | .lsb => (byte (p / 8)).getLsbD (p % 8)
  | .msb => (byte (p / 8)).getLsbD (7 - p % 8)

/-- The weight that bit `i` of an `n`-bit field has in its value (R22, R150). -/
def fieldWeight (ord : Order) (n i : Nat) : Nat :=
  match ord with
  | .lsb => i
  | .msb => n - 1 - i

/-- The sum of R150 over the first `i` bits of the field. -/
def refSum (byte : Nat → Byte) (ord : Order) (B n : Nat) : Nat → Nat
  | 0 => 0
  | i + 1 => refSum byte ord B n i + (streamBit byte ord (B + i)).toNat * 2 ^ fieldWeight ord n i

/-- `REF_READ(B, n, ord)`, the bit-by-bit reference reading (R150). -/
def refRead (byte : Nat → Byte) (ord : Order) (B n : Nat) : Nat := refSum byte ord B n n

/-- The bit a field write puts at stream bit `p` of bytes (R151): bit `i` or `n-1-i` of `v` inside the
field `B .. B+n-1`, the old bit outside it. -/
def refWriteBit (byte : Nat → Byte) (ord : Order) (B n : Nat) (v : Word64) (p : Nat) : Bool :=
  if B ≤ p ∧ p < B + n then v.getLsbD (fieldWeight ord n (p - B)) else streamBit byte ord p

end Sys2Proof.Machine
end

