-- ==== Sys2Proof/Machine/Operands.lean ====
section
/-! DEFINITION. The operand forms (30_encoding.md R111): the signed readings of OFFSET, COUNT and POS,
the width class, the byte index, sub-byte offset and byte span of a window operand (00_scope.md R21),
the scalar operand and the presentation of a read result (41_field_read.md R174). -/

namespace Sys2Proof.Machine

/-- `sint` of a 32-bit register (R42, R43, R47): its two's-complement integer. -/
def sint (x : Word32) : Int := x.toInt

/-- The width `W` in bits of a width class (R104, R175). -/
def widthBits (p : Params) (w : WidthClass) : Nat :=
  match w with
  | .w8 => 8
  | .w16 => 16
  | .w32 => 32
  | .w64 => 64
  | .ptr => p.ptrW

/-- `a = B >> 3` for `B >= 0` (R21). -/
def byteIndex (B : Int) : Nat := B.toNat / 8

/-- `o = B & 7` for `B >= 0` (R21). -/
def subOffset (B : Int) : Nat := B.toNat % 8

/-- `k = ceil((o + n)/8)`, 0 when n = 0 (R21). -/
def spanLength (o n : Nat) : Nat := if n = 0 then 0 else (o + n + 7) / 8

/-- The address of window index `i`, `(WIN_BASE + i) mod 2^ADDR_W` (R18, R90). -/
def winAddr (s : State) (i : Nat) : Nat := (s.winBase.toNat + i) % s.params.addrSpace

/-- The addresses of the byte span `a .. a+k-1` (R21, R84), in index order. -/
def spanAddrs (s : State) (a k : Nat) : List Nat := (List.range k).map fun j => winAddr s (a + j)

/-- The scalar operand `SCALAR[W-1:0]` (R46, R154). -/
def scalarOperand (s : State) (W : Nat) : BitVec W := s.scalar.setWidth W

/-- `SCALAR` with `SCALAR[W-1:0]` replaced and `SCALAR[63:W]` kept (R46, R233). -/
def replaceScalar (x : Word64) (W : Nat) (v : BitVec W) : Word64 :=
  ((x >>> W) <<< W) ||| v.setWidth 64

/-- The 64-bit presentation of an `n`-bit read result of width class `W` (R45, R174): zero-extended
when unsigned, `sext_64(sext_W(r, n), W)` when signed. -/
def present (g : Sign) (W n : Nat) (r : Word64) : Word64 :=
  match g with
  | .unsigned => r
  | .signed => sext 64 (sext W r n) W

/-- The single bit `WDATA[0]` of a bit write (R44). -/
def wdataBit (s : State) : Bool := s.wdata.getLsbD 0

/-- The bit of its byte that window position `p` names (R22): `p & 7` in LSB order, `7 - (p & 7)` in
MSB order. -/
def bitInByte (o : Order) (p : Nat) : Nat :=
  match o with
  | .lsb => p
  | .msb => 7 - p

/-- `base = WBASE[ADDR_W-1:0]`, zero-extended (R49, R370). -/
def bindBase (s : State) : Word64 := trunc s.wbase s.params.addrW

end Sys2Proof.Machine
end

