-- ==== Sys2Proof/Machine/Ops.lean ====
section
/-! DEFINITION. The named operations over memory and registers: window memory and its port (20_memory.md),
how a command ends well or in a fault (60_exceptions.md R381), the validations (R171, R173, R290), and
the field, bit, cursor, seek and bind operations that the commands' meanings are made of. -/

namespace Sys2Proof.Machine

/-! ## Window memory -/

/-- The byte at an address; an unlisted one reads `Config.unlistedByte` (log 1). -/
def Memory.read : Memory → Nat → Byte
  | [], _ => Config.unlistedByte
  | (a, v) :: m, x => if a = x then v else Memory.read m x

/-- Store one byte, keeping the canonical form. -/
def Memory.write : Memory → Nat → Byte → Memory
  | [], x, v => if v = Config.unlistedByte then [] else [(x, v)]
  | (a, w) :: m, x, v =>
    if x < a then (if v = Config.unlistedByte then (a, w) :: m else (x, v) :: (a, w) :: m)
    else if x = a then (if v = Config.unlistedByte then m else (x, v) :: m)
    else (a, w) :: Memory.write m x v

/-- Every address of the list is above `lo`, they rise strictly, and no byte is the unlisted one. -/
def Memory.wfFrom : Nat → Memory → Bool
  | _, [] => true
  | lo, (a, v) :: m => decide (lo ≤ a) && !(v == Config.unlistedByte) && Memory.wfFrom (a + 1) m

/-- The canonical form: equal memories are equal lists. -/
def Memory.wf (m : Memory) : Bool := Memory.wfFrom 0 m

/-- Store (address, byte) pairs in the given order. -/
def Memory.writeAll (m : Memory) : List Host.Cell → Memory
  | [] => m
  | (a, v) :: cells => Memory.writeAll (Memory.write m a v) cells

/-! ## Updates of the state -/

/-- `RDATA <- v`. -/
def State.setRdata (s : State) (v : Word64) : State := { s with rdata := v }

/-- `SCALAR <- v`. -/
def State.setScalar (s : State) (v : Word64) : State := { s with scalar := v }

/-- `POS <- v`. -/
def State.setPos (s : State) (v : Word32) : State := { s with pos := v }

/-- Window memory becomes `m`. -/
def State.setMem (s : State) (m : Memory) : State := { s with mem := m }

/-- The addresses raced on while a command executes become `addrs` (log 22). -/
def State.setRaced (s : State) (addrs : List Nat) : State := { s with raced := addrs }

/-- `n` more free values have been used. -/
def State.useFree (s : State) (n : Nat) : State := { s with freeCount := s.freeCount + n }

/-- The window is bound (R370): `WIN_BASE`, `WIN_LEN`, `BOUND <- 1`. -/
def State.setWindow (s : State) (base : Word64) (len : Word32) : State :=
  { s with bound := true, winBase := base, winLen := len }

/-- `STATUS.BUSY <- b` (R40). -/
def State.setBusy (s : State) (b : Bool) : State := { s with busy := b }

/-- The data a host read returns (log 12). -/
def State.setHostData (s : State) (v : Word32) : State := { s with hostData := v }

/-! ## How a command ends -/

/-- A command succeeds: `ERR <- 0`, STICKY unchanged (R38, R41, R380). -/
def succeed (s : State) : State := { s with err := .ok }

/-- `raise E`, taking a fault (R381): `ERR <- code(E)`, `STICKY <- 1`, and nothing else (R387, R394).
No pc or status is saved, no vector is taken, and there is no return: the host's acknowledgement is
`writeStatus` (R395). -/
def raise (s : State) (c : ResultCode) : State := { s with err := c, sticky := true }

/-! ## Free values in window memory -/

/-- Pairs of the addresses with free bytes, numbered from `c` (log 8, 9, 10). -/
def freeCells : Nat → List Nat → List Host.Cell
  | _, [] => []
  | c, a :: as => (a, Config.freeByte c) :: freeCells (c + 1) as

/-- Every byte at the addresses holds an unspecified value (R386, R421, R92(d)). -/
def scramble (s : State) (addrs : List Nat) : State :=
  (s.setMem (s.mem.writeAll (freeCells s.freeCount addrs))).useFree addrs.length

/-- The cells in an order taken from free choices, one choice per cell (R87; log 11). -/
def freeOrder : Nat → Nat → List Host.Cell → List Host.Cell
  | 0, _, cells => cells
  | fuel + 1, c, cells =>
    match cells[Config.freeChoice c % cells.length]? with
    | none => cells
    | some x => x :: freeOrder fuel (c + 1) (cells.eraseIdx (Config.freeChoice c % cells.length))

/-! ## The window port -/

/-- The byte that window memory holds at window index `i` (R18, R90). -/
def heldByte (s : State) (i : Nat) : Byte := s.mem.read (winAddr s i)

/-- `WinRead(i)` (R18): the byte held there, or, in a race on its address, any byte: a free value of its
own for each index read, so that two indices with one address need not read alike (R92(d), log 9). -/
def winRead (s : State) (i : Nat) : Byte :=
  if winAddr s i ∈ s.raced then Config.freeByte (s.freeCount + i) else heldByte s i

/-- The staged bytes of the span `a .. a+k-1`, in index order (R84, R140). -/
def stageBytes (s : State) (a k : Nat) : List Byte := (List.range k).map fun j => winRead s (a + j)

/-- The (address, byte) pairs of a write-back from index `a` (R147). -/
def backCells (s : State) (a : Nat) (bytes : List Byte) : List Host.Cell :=
  (spanAddrs s a bytes.length).zip bytes

/-- Write the bytes back from index `a`, after all reads (R87, R147). A span longer than the address
space covers an address twice, and then the order of the writes, which R87 leaves open, is free. -/
def writeBack (s : State) (a : Nat) (bytes : List Byte) : State :=
  if bytes.length ≤ s.params.addrSpace then s.setMem (s.mem.writeAll (backCells s a bytes))
  else
    (s.setMem
      (s.mem.writeAll (freeOrder bytes.length s.freeCount (backCells s a bytes)))).useFree
        bytes.length

/-- The port errs on reading one of the addresses (R386, 92 D24). -/
def readErrs (s : State) (addrs : List Nat) : Bool := addrs.any s.port.readErrs.contains

/-- The port errs on reading or writing one of the addresses of a write command, which reads its span
before it writes it (R84, R386). -/
def writeErrs (s : State) (addrs : List Nat) : Bool :=
  readErrs s addrs || addrs.any s.port.writeErrs.contains

/-! ## Validation -/

/-- `check_window(B, n, W)` (R171), in its order: the fault, if any. -/
def checkWindow (s : State) (B n : Int) (W : Nat) : Option ResultCode :=
  if !s.bound then some .nullBuffer
  else if n < 0 ∨ (W : Int) < n then some .outOfRange
  else if B < 0 then some .outOfRange
  else if 8 * (s.winLen.toNat : Int) < B + n then some .outOfRange
  else none

/-- `check_scalar(B, n, W)` (R173), in its order: the fault, if any. -/
def checkScalar (B n : Int) (W : Nat) : Option ResultCode :=
  if n < 0 ∨ (W : Int) < n then some .outOfRange
  else if B < 0 then some .outOfRange
  else if (W : Int) < B + n then some .outOfRange
  else none

/-- `index_bit(B)` (R290): the fault, if any. `B / 8` on integers is the arithmetic shift by 3. -/
def indexBit (s : State) (B : Int) : Option ResultCode :=
  if !s.bound then some .nullBuffer
  else if B / 8 < 0 ∨ (s.winLen.toNat : Int) ≤ B / 8 then some .index
  else none

/-! ## Field operations -/

/-- The window read of `COUNT` bits at bit offset `B` (R172, R174): `check_window`, the reads of the
span (R386 if the port errs), RDATA. -/
def readField (w : WidthClass) (g : Sign) (ord : Order) (B : Int) (s : State) : State :=
  let W := widthBits s.params w
  let n := sint s.count
  match checkWindow s B n W with
  | some c => raise s c
  | none =>
    let a := byteIndex B
    let o := subOffset B
    let k := spanLength o n.toNat
    if readErrs s (spanAddrs s a k) then raise s .busError
    else succeed (s.setRdata (present g W n.toNat (fieldRead ord W o n.toNat (stageBytes s a k))))

/-- The window write of `COUNT` bits at bit offset `B` (R230, R232): `check_window`, the
read-modify-write of the span, with `trunc_n(WDATA)`. A port error leaves every byte of the span
unspecified (R386). -/
def writeField (w : WidthClass) (ord : Order) (B : Int) (s : State) : State :=
  let W := widthBits s.params w
  let n := sint s.count
  match checkWindow s B n W with
  | some c => raise s c
  | none =>
    let a := byteIndex B
    let o := subOffset B
    let k := spanLength o n.toNat
    if writeErrs s (spanAddrs s a k) then raise (scramble s (spanAddrs s a k)) .busError
    else
      succeed (writeBack s a (fieldWrite ord W o (trunc s.wdata n.toNat) n.toNat (stageBytes s a k)))

/-- The scalar read (R173, R174). -/
def readScalar (w : WidthClass) (g : Sign) (ord : Order) (s : State) : State :=
  let W := widthBits s.params w
  let n := sint s.count
  match checkScalar (sint s.offset) n W with
  | some c => raise s c
  | none =>
    let r := maskRead ord (scalarOperand s W) (sint s.offset).toNat n.toNat
    succeed (s.setRdata (present g W n.toNat (r.setWidth 64)))

/-- The scalar write (R231, R233). -/
def writeScalar (w : WidthClass) (ord : Order) (s : State) : State :=
  let W := widthBits s.params w
  let n := sint s.count
  match checkScalar (sint s.offset) n W with
  | some c => raise s c
  | none =>
    let v := (trunc s.wdata n.toNat).setWidth W
    let r := maskWrite ord (scalarOperand s W) (sint s.offset).toNat v n.toNat
    succeed (s.setScalar (replaceScalar s.scalar W r))

/-! ## Single-bit operations -/

/-- Read the bit at bit offset `B` (R291, R292): `index_bit`, one byte, RDATA. -/
def readBitAt (ord : Order) (B : Int) (s : State) : State :=
  match indexBit s B with
  | some c => raise s c
  | none =>
    let a := byteIndex B
    if readErrs s [winAddr s a] then raise s .busError
    else
      let p := bitInByte ord (subOffset B)
      succeed (s.setRdata (((winRead s a >>> p) &&& 1).setWidth 64))

/-- Write `WDATA[0]` at bit offset `B` (R293, R294): `index_bit`, then one byte read and written. A
port error leaves that byte unspecified (R386). -/
def writeBitAt (ord : Order) (B : Int) (s : State) : State :=
  match indexBit s B with
  | some c => raise s c
  | none =>
    let a := byteIndex B
    if writeErrs s [winAddr s a] then raise (scramble s [winAddr s a]) .busError
    else
      let p := bitInByte ord (subOffset B)
      let bit : Byte := (BitVec.ofBool (wdataBit s)).setWidth 8
      succeed (writeBack s a [(winRead s a &&& ~~~((1 : Byte) <<< p)) ||| (bit <<< p)])

/-! ## Cursor, seek and bind -/

/-- The advance of R300 (b): `POS <- POS + n` when the command just delegated to succeeded, nothing
on a fault (90_conflicts.md C6). -/
def advance (n : Word32) (s : State) : State :=
  if s.err = .ok then s.setPos (s.pos + n) else s

/-- `CRD` (R300, R301): the window read at `sint(POS)`, then the advance by `COUNT`. -/
def cursorReadField (w : WidthClass) (g : Sign) (ord : Order) (s : State) : State :=
  advance s.count (readField w g ord (sint s.pos) s)

/-- `CWR` (R300, R301): the window write at `sint(POS)`, then the advance by `COUNT`. -/
def cursorWriteField (w : WidthClass) (ord : Order) (s : State) : State :=
  advance s.count (writeField w ord (sint s.pos) s)

/-- `CRDBIT` (R345, R346): the bit read at `sint(POS)`, then the advance by 1. -/
def cursorReadBitAt (ord : Order) (s : State) : State :=
  advance 1 (readBitAt ord (sint s.pos) s)

/-- `CWRBIT` (R347, R348): the bit write at `sint(POS)`, then the advance by 1. -/
def cursorWriteBitAt (ord : Order) (s : State) : State :=
  advance 1 (writeBitAt ord (sint s.pos) s)

/-- The position a seek computes, modulo 2^32 (R349). -/
def seekTarget (g : Origin) (s : State) : Word32 :=
  match g with
  | .begin => s.offset
  | .current => s.pos + s.offset
  | .fromEnd => s.winLen * 8 + s.offset

/-- SEEK (R349 to R352): NULL_BUFFER when unbound (92 D36), else POS is assigned unchecked. -/
def seekTo (g : Origin) (s : State) : State :=
  if s.bound then succeed (s.setPos (seekTarget g s)) else raise s .nullBuffer

/-- BIND (R370): SIZE when `WLEN_REQ >= 2^28` read unsigned, else the window and `POS <- 0`. -/
def bindWindow (s : State) : State :=
  if Config.maxLen ≤ s.wlenReq.toNat then raise s .size
  else succeed ((s.setWindow (bindBase s) s.wlenReq).setPos 0)

end Sys2Proof.Machine
end

