-- ==== Sys2Proof/Machine/Control.lean ====
section
/-! DEFINITION. The meanings of BIND (45_control.md R370).
Each is one line over a shared operation of Machine/Ops.lean. A command always ends in a next state: its
faults are result codes in STATUS (R380). -/

namespace Sys2Proof.Machine

/-- `BIND` (R370). -/
def execBind (s : State) : Host.Outcome State Fault Refusal :=
  .next (bindWindow s)

end Sys2Proof.Machine
end

