-- ==== Sys2Proof/Machine/Cursor.lean ====
section
/-! DEFINITION. The meanings of the cursor commands and the seeks (44_cursor.md R300 to R352).
Each is one line over a shared operation of Machine/Ops.lean. A command always ends in a next state: its
faults are result codes in STATUS (R380). -/

namespace Sys2Proof.Machine

/-- `CRD.U8.LSB` (R305). -/
def execCrdU8Lsb (s : State) : Host.Outcome State Fault Refusal :=
  .next (cursorReadField .w8 .unsigned .lsb s)

/-- `CRD.U8.MSB` (R306). -/
def execCrdU8Msb (s : State) : Host.Outcome State Fault Refusal :=
  .next (cursorReadField .w8 .unsigned .msb s)

/-- `CRD.I8.LSB` (R307). -/
def execCrdI8Lsb (s : State) : Host.Outcome State Fault Refusal :=
  .next (cursorReadField .w8 .signed .lsb s)

/-- `CRD.I8.MSB` (R308). -/
def execCrdI8Msb (s : State) : Host.Outcome State Fault Refusal :=
  .next (cursorReadField .w8 .signed .msb s)

/-- `CRD.U16.LSB` (R309). -/
def execCrdU16Lsb (s : State) : Host.Outcome State Fault Refusal :=
  .next (cursorReadField .w16 .unsigned .lsb s)

/-- `CRD.U16.MSB` (R310). -/
def execCrdU16Msb (s : State) : Host.Outcome State Fault Refusal :=
  .next (cursorReadField .w16 .unsigned .msb s)

/-- `CRD.I16.LSB` (R311). -/
def execCrdI16Lsb (s : State) : Host.Outcome State Fault Refusal :=
  .next (cursorReadField .w16 .signed .lsb s)

/-- `CRD.I16.MSB` (R312). -/
def execCrdI16Msb (s : State) : Host.Outcome State Fault Refusal :=
  .next (cursorReadField .w16 .signed .msb s)

/-- `CRD.U32.LSB` (R313). -/
def execCrdU32Lsb (s : State) : Host.Outcome State Fault Refusal :=
  .next (cursorReadField .w32 .unsigned .lsb s)

/-- `CRD.U32.MSB` (R314). -/
def execCrdU32Msb (s : State) : Host.Outcome State Fault Refusal :=
  .next (cursorReadField .w32 .unsigned .msb s)

/-- `CRD.I32.LSB` (R315). -/
def execCrdI32Lsb (s : State) : Host.Outcome State Fault Refusal :=
  .next (cursorReadField .w32 .signed .lsb s)

/-- `CRD.I32.MSB` (R316). -/
def execCrdI32Msb (s : State) : Host.Outcome State Fault Refusal :=
  .next (cursorReadField .w32 .signed .msb s)

/-- `CRD.U64.LSB` (R317). -/
def execCrdU64Lsb (s : State) : Host.Outcome State Fault Refusal :=
  .next (cursorReadField .w64 .unsigned .lsb s)

/-- `CRD.U64.MSB` (R318). -/
def execCrdU64Msb (s : State) : Host.Outcome State Fault Refusal :=
  .next (cursorReadField .w64 .unsigned .msb s)

/-- `CRD.I64.LSB` (R319). -/
def execCrdI64Lsb (s : State) : Host.Outcome State Fault Refusal :=
  .next (cursorReadField .w64 .signed .lsb s)

/-- `CRD.I64.MSB` (R320). -/
def execCrdI64Msb (s : State) : Host.Outcome State Fault Refusal :=
  .next (cursorReadField .w64 .signed .msb s)

/-- `CRD.UP.LSB` (R321). -/
def execCrdUPLsb (s : State) : Host.Outcome State Fault Refusal :=
  .next (cursorReadField .ptr .unsigned .lsb s)

/-- `CRD.UP.MSB` (R322). -/
def execCrdUPMsb (s : State) : Host.Outcome State Fault Refusal :=
  .next (cursorReadField .ptr .unsigned .msb s)

/-- `CRD.IP.LSB` (R323). -/
def execCrdIPLsb (s : State) : Host.Outcome State Fault Refusal :=
  .next (cursorReadField .ptr .signed .lsb s)

/-- `CRD.IP.MSB` (R324). -/
def execCrdIPMsb (s : State) : Host.Outcome State Fault Refusal :=
  .next (cursorReadField .ptr .signed .msb s)

/-- `CWR.U8.LSB` (R325). -/
def execCwrU8Lsb (s : State) : Host.Outcome State Fault Refusal :=
  .next (cursorWriteField .w8 .lsb s)

/-- `CWR.U8.MSB` (R326). -/
def execCwrU8Msb (s : State) : Host.Outcome State Fault Refusal :=
  .next (cursorWriteField .w8 .msb s)

/-- `CWR.I8.LSB` (R327). -/
def execCwrI8Lsb (s : State) : Host.Outcome State Fault Refusal :=
  .next (cursorWriteField .w8 .lsb s)

/-- `CWR.I8.MSB` (R328). -/
def execCwrI8Msb (s : State) : Host.Outcome State Fault Refusal :=
  .next (cursorWriteField .w8 .msb s)

/-- `CWR.U16.LSB` (R329). -/
def execCwrU16Lsb (s : State) : Host.Outcome State Fault Refusal :=
  .next (cursorWriteField .w16 .lsb s)

/-- `CWR.U16.MSB` (R330). -/
def execCwrU16Msb (s : State) : Host.Outcome State Fault Refusal :=
  .next (cursorWriteField .w16 .msb s)

/-- `CWR.I16.LSB` (R331). -/
def execCwrI16Lsb (s : State) : Host.Outcome State Fault Refusal :=
  .next (cursorWriteField .w16 .lsb s)

/-- `CWR.I16.MSB` (R332). -/
def execCwrI16Msb (s : State) : Host.Outcome State Fault Refusal :=
  .next (cursorWriteField .w16 .msb s)

/-- `CWR.U32.LSB` (R333). -/
def execCwrU32Lsb (s : State) : Host.Outcome State Fault Refusal :=
  .next (cursorWriteField .w32 .lsb s)

/-- `CWR.U32.MSB` (R334). -/
def execCwrU32Msb (s : State) : Host.Outcome State Fault Refusal :=
  .next (cursorWriteField .w32 .msb s)

/-- `CWR.I32.LSB` (R335). -/
def execCwrI32Lsb (s : State) : Host.Outcome State Fault Refusal :=
  .next (cursorWriteField .w32 .lsb s)

/-- `CWR.I32.MSB` (R336). -/
def execCwrI32Msb (s : State) : Host.Outcome State Fault Refusal :=
  .next (cursorWriteField .w32 .msb s)

/-- `CWR.U64.LSB` (R337). -/
def execCwrU64Lsb (s : State) : Host.Outcome State Fault Refusal :=
  .next (cursorWriteField .w64 .lsb s)

/-- `CWR.U64.MSB` (R338). -/
def execCwrU64Msb (s : State) : Host.Outcome State Fault Refusal :=
  .next (cursorWriteField .w64 .msb s)

/-- `CWR.I64.LSB` (R339). -/
def execCwrI64Lsb (s : State) : Host.Outcome State Fault Refusal :=
  .next (cursorWriteField .w64 .lsb s)

/-- `CWR.I64.MSB` (R340). -/
def execCwrI64Msb (s : State) : Host.Outcome State Fault Refusal :=
  .next (cursorWriteField .w64 .msb s)

/-- `CWR.UP.LSB` (R341). -/
def execCwrUPLsb (s : State) : Host.Outcome State Fault Refusal :=
  .next (cursorWriteField .ptr .lsb s)

/-- `CWR.UP.MSB` (R342). -/
def execCwrUPMsb (s : State) : Host.Outcome State Fault Refusal :=
  .next (cursorWriteField .ptr .msb s)

/-- `CWR.IP.LSB` (R343). -/
def execCwrIPLsb (s : State) : Host.Outcome State Fault Refusal :=
  .next (cursorWriteField .ptr .lsb s)

/-- `CWR.IP.MSB` (R344). -/
def execCwrIPMsb (s : State) : Host.Outcome State Fault Refusal :=
  .next (cursorWriteField .ptr .msb s)

/-- `CRDBIT.LSB` (R345). -/
def execCrdbitLsb (s : State) : Host.Outcome State Fault Refusal :=
  .next (cursorReadBitAt .lsb s)

/-- `CRDBIT.MSB` (R346). -/
def execCrdbitMsb (s : State) : Host.Outcome State Fault Refusal :=
  .next (cursorReadBitAt .msb s)

/-- `CWRBIT.LSB` (R347). -/
def execCwrbitLsb (s : State) : Host.Outcome State Fault Refusal :=
  .next (cursorWriteBitAt .lsb s)

/-- `CWRBIT.MSB` (R348). -/
def execCwrbitMsb (s : State) : Host.Outcome State Fault Refusal :=
  .next (cursorWriteBitAt .msb s)

/-- `SEEK.BEGIN` (R350). -/
def execSeekBegin (s : State) : Host.Outcome State Fault Refusal :=
  .next (seekTo .begin s)

/-- `SEEK.CUR` (R351). -/
def execSeekCur (s : State) : Host.Outcome State Fault Refusal :=
  .next (seekTo .current s)

/-- `SEEK.END` (R352). -/
def execSeekEnd (s : State) : Host.Outcome State Fault Refusal :=
  .next (seekTo .fromEnd s)

end Sys2Proof.Machine
end

