-- ==== Sys2Proof/Machine/FieldRead.lean ====
section
/-! DEFINITION. The meanings of the RD commands (41_field_read.md R170 to R219), window and scalar forms.
Each is one line over a shared operation of Machine/Ops.lean. A command always ends in a next state: its
faults are result codes in STATUS (R380). -/

namespace Sys2Proof.Machine

/-- `RD.U8.LSB` (R180). -/
def execRdU8Lsb (s : State) : Host.Outcome State Fault Refusal :=
  .next (readField .w8 .unsigned .lsb (sint s.offset) s)

/-- `RD.U8.LSB.S` (R181). -/
def execRdU8LsbS (s : State) : Host.Outcome State Fault Refusal :=
  .next (readScalar .w8 .unsigned .lsb s)

/-- `RD.U8.MSB` (R182). -/
def execRdU8Msb (s : State) : Host.Outcome State Fault Refusal :=
  .next (readField .w8 .unsigned .msb (sint s.offset) s)

/-- `RD.U8.MSB.S` (R183). -/
def execRdU8MsbS (s : State) : Host.Outcome State Fault Refusal :=
  .next (readScalar .w8 .unsigned .msb s)

/-- `RD.I8.LSB` (R184). -/
def execRdI8Lsb (s : State) : Host.Outcome State Fault Refusal :=
  .next (readField .w8 .signed .lsb (sint s.offset) s)

/-- `RD.I8.LSB.S` (R185). -/
def execRdI8LsbS (s : State) : Host.Outcome State Fault Refusal :=
  .next (readScalar .w8 .signed .lsb s)

/-- `RD.I8.MSB` (R186). -/
def execRdI8Msb (s : State) : Host.Outcome State Fault Refusal :=
  .next (readField .w8 .signed .msb (sint s.offset) s)

/-- `RD.I8.MSB.S` (R187). -/
def execRdI8MsbS (s : State) : Host.Outcome State Fault Refusal :=
  .next (readScalar .w8 .signed .msb s)

/-- `RD.U16.LSB` (R188). -/
def execRdU16Lsb (s : State) : Host.Outcome State Fault Refusal :=
  .next (readField .w16 .unsigned .lsb (sint s.offset) s)

/-- `RD.U16.LSB.S` (R189). -/
def execRdU16LsbS (s : State) : Host.Outcome State Fault Refusal :=
  .next (readScalar .w16 .unsigned .lsb s)

/-- `RD.U16.MSB` (R190). -/
def execRdU16Msb (s : State) : Host.Outcome State Fault Refusal :=
  .next (readField .w16 .unsigned .msb (sint s.offset) s)

/-- `RD.U16.MSB.S` (R191). -/
def execRdU16MsbS (s : State) : Host.Outcome State Fault Refusal :=
  .next (readScalar .w16 .unsigned .msb s)

/-- `RD.I16.LSB` (R192). -/
def execRdI16Lsb (s : State) : Host.Outcome State Fault Refusal :=
  .next (readField .w16 .signed .lsb (sint s.offset) s)

/-- `RD.I16.LSB.S` (R193). -/
def execRdI16LsbS (s : State) : Host.Outcome State Fault Refusal :=
  .next (readScalar .w16 .signed .lsb s)

/-- `RD.I16.MSB` (R194). -/
def execRdI16Msb (s : State) : Host.Outcome State Fault Refusal :=
  .next (readField .w16 .signed .msb (sint s.offset) s)

/-- `RD.I16.MSB.S` (R195). -/
def execRdI16MsbS (s : State) : Host.Outcome State Fault Refusal :=
  .next (readScalar .w16 .signed .msb s)

/-- `RD.U32.LSB` (R196). -/
def execRdU32Lsb (s : State) : Host.Outcome State Fault Refusal :=
  .next (readField .w32 .unsigned .lsb (sint s.offset) s)

/-- `RD.U32.LSB.S` (R197). -/
def execRdU32LsbS (s : State) : Host.Outcome State Fault Refusal :=
  .next (readScalar .w32 .unsigned .lsb s)

/-- `RD.U32.MSB` (R198). -/
def execRdU32Msb (s : State) : Host.Outcome State Fault Refusal :=
  .next (readField .w32 .unsigned .msb (sint s.offset) s)

/-- `RD.U32.MSB.S` (R199). -/
def execRdU32MsbS (s : State) : Host.Outcome State Fault Refusal :=
  .next (readScalar .w32 .unsigned .msb s)

/-- `RD.I32.LSB` (R200). -/
def execRdI32Lsb (s : State) : Host.Outcome State Fault Refusal :=
  .next (readField .w32 .signed .lsb (sint s.offset) s)

/-- `RD.I32.LSB.S` (R201). -/
def execRdI32LsbS (s : State) : Host.Outcome State Fault Refusal :=
  .next (readScalar .w32 .signed .lsb s)

/-- `RD.I32.MSB` (R202). -/
def execRdI32Msb (s : State) : Host.Outcome State Fault Refusal :=
  .next (readField .w32 .signed .msb (sint s.offset) s)

/-- `RD.I32.MSB.S` (R203). -/
def execRdI32MsbS (s : State) : Host.Outcome State Fault Refusal :=
  .next (readScalar .w32 .signed .msb s)

/-- `RD.U64.LSB` (R204). -/
def execRdU64Lsb (s : State) : Host.Outcome State Fault Refusal :=
  .next (readField .w64 .unsigned .lsb (sint s.offset) s)

/-- `RD.U64.LSB.S` (R205). -/
def execRdU64LsbS (s : State) : Host.Outcome State Fault Refusal :=
  .next (readScalar .w64 .unsigned .lsb s)

/-- `RD.U64.MSB` (R206). -/
def execRdU64Msb (s : State) : Host.Outcome State Fault Refusal :=
  .next (readField .w64 .unsigned .msb (sint s.offset) s)

/-- `RD.U64.MSB.S` (R207). -/
def execRdU64MsbS (s : State) : Host.Outcome State Fault Refusal :=
  .next (readScalar .w64 .unsigned .msb s)

/-- `RD.I64.LSB` (R208). -/
def execRdI64Lsb (s : State) : Host.Outcome State Fault Refusal :=
  .next (readField .w64 .signed .lsb (sint s.offset) s)

/-- `RD.I64.LSB.S` (R209). -/
def execRdI64LsbS (s : State) : Host.Outcome State Fault Refusal :=
  .next (readScalar .w64 .signed .lsb s)

/-- `RD.I64.MSB` (R210). -/
def execRdI64Msb (s : State) : Host.Outcome State Fault Refusal :=
  .next (readField .w64 .signed .msb (sint s.offset) s)

/-- `RD.I64.MSB.S` (R211). -/
def execRdI64MsbS (s : State) : Host.Outcome State Fault Refusal :=
  .next (readScalar .w64 .signed .msb s)

/-- `RD.UP.LSB` (R212). -/
def execRdUPLsb (s : State) : Host.Outcome State Fault Refusal :=
  .next (readField .ptr .unsigned .lsb (sint s.offset) s)

/-- `RD.UP.LSB.S` (R213). -/
def execRdUPLsbS (s : State) : Host.Outcome State Fault Refusal :=
  .next (readScalar .ptr .unsigned .lsb s)

/-- `RD.UP.MSB` (R214). -/
def execRdUPMsb (s : State) : Host.Outcome State Fault Refusal :=
  .next (readField .ptr .unsigned .msb (sint s.offset) s)

/-- `RD.UP.MSB.S` (R215). -/
def execRdUPMsbS (s : State) : Host.Outcome State Fault Refusal :=
  .next (readScalar .ptr .unsigned .msb s)

/-- `RD.IP.LSB` (R216). -/
def execRdIPLsb (s : State) : Host.Outcome State Fault Refusal :=
  .next (readField .ptr .signed .lsb (sint s.offset) s)

/-- `RD.IP.LSB.S` (R217). -/
def execRdIPLsbS (s : State) : Host.Outcome State Fault Refusal :=
  .next (readScalar .ptr .signed .lsb s)

/-- `RD.IP.MSB` (R218). -/
def execRdIPMsb (s : State) : Host.Outcome State Fault Refusal :=
  .next (readField .ptr .signed .msb (sint s.offset) s)

/-- `RD.IP.MSB.S` (R219). -/
def execRdIPMsbS (s : State) : Host.Outcome State Fault Refusal :=
  .next (readScalar .ptr .signed .msb s)

end Sys2Proof.Machine
end

