-- ==== Sys2Proof/Machine/FieldWrite.lean ====
section
/-! DEFINITION. The meanings of the WR commands (42_field_write.md R230 to R279), window and scalar forms. `WR.I` and
`WR.U` of one width have equal effects (R234).
Each is one line over a shared operation of Machine/Ops.lean. A command always ends in a next state: its
faults are result codes in STATUS (R380). -/

namespace Sys2Proof.Machine

/-- `WR.U8.LSB` (R240). -/
def execWrU8Lsb (s : State) : Host.Outcome State Fault Refusal :=
  .next (writeField .w8 .lsb (sint s.offset) s)

/-- `WR.U8.LSB.S` (R241). -/
def execWrU8LsbS (s : State) : Host.Outcome State Fault Refusal :=
  .next (writeScalar .w8 .lsb s)

/-- `WR.U8.MSB` (R242). -/
def execWrU8Msb (s : State) : Host.Outcome State Fault Refusal :=
  .next (writeField .w8 .msb (sint s.offset) s)

/-- `WR.U8.MSB.S` (R243). -/
def execWrU8MsbS (s : State) : Host.Outcome State Fault Refusal :=
  .next (writeScalar .w8 .msb s)

/-- `WR.I8.LSB` (R244). -/
def execWrI8Lsb (s : State) : Host.Outcome State Fault Refusal :=
  .next (writeField .w8 .lsb (sint s.offset) s)

/-- `WR.I8.LSB.S` (R245). -/
def execWrI8LsbS (s : State) : Host.Outcome State Fault Refusal :=
  .next (writeScalar .w8 .lsb s)

/-- `WR.I8.MSB` (R246). -/
def execWrI8Msb (s : State) : Host.Outcome State Fault Refusal :=
  .next (writeField .w8 .msb (sint s.offset) s)

/-- `WR.I8.MSB.S` (R247). -/
def execWrI8MsbS (s : State) : Host.Outcome State Fault Refusal :=
  .next (writeScalar .w8 .msb s)

/-- `WR.U16.LSB` (R248). -/
def execWrU16Lsb (s : State) : Host.Outcome State Fault Refusal :=
  .next (writeField .w16 .lsb (sint s.offset) s)

/-- `WR.U16.LSB.S` (R249). -/
def execWrU16LsbS (s : State) : Host.Outcome State Fault Refusal :=
  .next (writeScalar .w16 .lsb s)

/-- `WR.U16.MSB` (R250). -/
def execWrU16Msb (s : State) : Host.Outcome State Fault Refusal :=
  .next (writeField .w16 .msb (sint s.offset) s)

/-- `WR.U16.MSB.S` (R251). -/
def execWrU16MsbS (s : State) : Host.Outcome State Fault Refusal :=
  .next (writeScalar .w16 .msb s)

/-- `WR.I16.LSB` (R252). -/
def execWrI16Lsb (s : State) : Host.Outcome State Fault Refusal :=
  .next (writeField .w16 .lsb (sint s.offset) s)

/-- `WR.I16.LSB.S` (R253). -/
def execWrI16LsbS (s : State) : Host.Outcome State Fault Refusal :=
  .next (writeScalar .w16 .lsb s)

/-- `WR.I16.MSB` (R254). -/
def execWrI16Msb (s : State) : Host.Outcome State Fault Refusal :=
  .next (writeField .w16 .msb (sint s.offset) s)

/-- `WR.I16.MSB.S` (R255). -/
def execWrI16MsbS (s : State) : Host.Outcome State Fault Refusal :=
  .next (writeScalar .w16 .msb s)

/-- `WR.U32.LSB` (R256). -/
def execWrU32Lsb (s : State) : Host.Outcome State Fault Refusal :=
  .next (writeField .w32 .lsb (sint s.offset) s)

/-- `WR.U32.LSB.S` (R257). -/
def execWrU32LsbS (s : State) : Host.Outcome State Fault Refusal :=
  .next (writeScalar .w32 .lsb s)

/-- `WR.U32.MSB` (R258). -/
def execWrU32Msb (s : State) : Host.Outcome State Fault Refusal :=
  .next (writeField .w32 .msb (sint s.offset) s)

/-- `WR.U32.MSB.S` (R259). -/
def execWrU32MsbS (s : State) : Host.Outcome State Fault Refusal :=
  .next (writeScalar .w32 .msb s)

/-- `WR.I32.LSB` (R260). -/
def execWrI32Lsb (s : State) : Host.Outcome State Fault Refusal :=
  .next (writeField .w32 .lsb (sint s.offset) s)

/-- `WR.I32.LSB.S` (R261). -/
def execWrI32LsbS (s : State) : Host.Outcome State Fault Refusal :=
  .next (writeScalar .w32 .lsb s)

/-- `WR.I32.MSB` (R262). -/
def execWrI32Msb (s : State) : Host.Outcome State Fault Refusal :=
  .next (writeField .w32 .msb (sint s.offset) s)

/-- `WR.I32.MSB.S` (R263). -/
def execWrI32MsbS (s : State) : Host.Outcome State Fault Refusal :=
  .next (writeScalar .w32 .msb s)

/-- `WR.U64.LSB` (R264). -/
def execWrU64Lsb (s : State) : Host.Outcome State Fault Refusal :=
  .next (writeField .w64 .lsb (sint s.offset) s)

/-- `WR.U64.LSB.S` (R265). -/
def execWrU64LsbS (s : State) : Host.Outcome State Fault Refusal :=
  .next (writeScalar .w64 .lsb s)

/-- `WR.U64.MSB` (R266). -/
def execWrU64Msb (s : State) : Host.Outcome State Fault Refusal :=
  .next (writeField .w64 .msb (sint s.offset) s)

/-- `WR.U64.MSB.S` (R267). -/
def execWrU64MsbS (s : State) : Host.Outcome State Fault Refusal :=
  .next (writeScalar .w64 .msb s)

/-- `WR.I64.LSB` (R268). -/
def execWrI64Lsb (s : State) : Host.Outcome State Fault Refusal :=
  .next (writeField .w64 .lsb (sint s.offset) s)

/-- `WR.I64.LSB.S` (R269). -/
def execWrI64LsbS (s : State) : Host.Outcome State Fault Refusal :=
  .next (writeScalar .w64 .lsb s)

/-- `WR.I64.MSB` (R270). -/
def execWrI64Msb (s : State) : Host.Outcome State Fault Refusal :=
  .next (writeField .w64 .msb (sint s.offset) s)

/-- `WR.I64.MSB.S` (R271). -/
def execWrI64MsbS (s : State) : Host.Outcome State Fault Refusal :=
  .next (writeScalar .w64 .msb s)

/-- `WR.UP.LSB` (R272). -/
def execWrUPLsb (s : State) : Host.Outcome State Fault Refusal :=
  .next (writeField .ptr .lsb (sint s.offset) s)

/-- `WR.UP.LSB.S` (R273). -/
def execWrUPLsbS (s : State) : Host.Outcome State Fault Refusal :=
  .next (writeScalar .ptr .lsb s)

/-- `WR.UP.MSB` (R274). -/
def execWrUPMsb (s : State) : Host.Outcome State Fault Refusal :=
  .next (writeField .ptr .msb (sint s.offset) s)

/-- `WR.UP.MSB.S` (R275). -/
def execWrUPMsbS (s : State) : Host.Outcome State Fault Refusal :=
  .next (writeScalar .ptr .msb s)

/-- `WR.IP.LSB` (R276). -/
def execWrIPLsb (s : State) : Host.Outcome State Fault Refusal :=
  .next (writeField .ptr .lsb (sint s.offset) s)

/-- `WR.IP.LSB.S` (R277). -/
def execWrIPLsbS (s : State) : Host.Outcome State Fault Refusal :=
  .next (writeScalar .ptr .lsb s)

/-- `WR.IP.MSB` (R278). -/
def execWrIPMsb (s : State) : Host.Outcome State Fault Refusal :=
  .next (writeField .ptr .msb (sint s.offset) s)

/-- `WR.IP.MSB.S` (R279). -/
def execWrIPMsbS (s : State) : Host.Outcome State Fault Refusal :=
  .next (writeScalar .ptr .msb s)

end Sys2Proof.Machine
end

