-- ==== Sys2Proof/Machine/SingleBit.lean ====
section
/-! DEFINITION. The meanings of the single-bit commands (43_single_bit.md R290 to R294).
Each is one line over a shared operation of Machine/Ops.lean. A command always ends in a next state: its
faults are result codes in STATUS (R380). -/

namespace Sys2Proof.Machine

/-- `RDBIT.LSB` (R291). -/
def execRdbitLsb (s : State) : Host.Outcome State Fault Refusal :=
  .next (readBitAt .lsb (sint s.offset) s)

/-- `RDBIT.MSB` (R292). -/
def execRdbitMsb (s : State) : Host.Outcome State Fault Refusal :=
  .next (readBitAt .msb (sint s.offset) s)

/-- `WRBIT.LSB` (R293). -/
def execWrbitLsb (s : State) : Host.Outcome State Fault Refusal :=
  .next (writeBitAt .lsb (sint s.offset) s)

/-- `WRBIT.MSB` (R294). -/
def execWrbitMsb (s : State) : Host.Outcome State Fault Refusal :=
  .next (writeBitAt .msb (sint s.offset) s)

end Sys2Proof.Machine
end

