-- ==== Sys2Proof/Machine/Dispatch.lean ====
section
/-! DEFINITION. One arm per command: the meaning of its row of spec/opcode_table.json. -/

namespace Sys2Proof.Machine

def exec (i : Instr) (s : State) : Host.Outcome State Fault Refusal :=
  match i with
  | .rdU8Lsb => Sys2Proof.Machine.execRdU8Lsb s
  | .rdU8LsbS => Sys2Proof.Machine.execRdU8LsbS s
  | .rdU8Msb => Sys2Proof.Machine.execRdU8Msb s
  | .rdU8MsbS => Sys2Proof.Machine.execRdU8MsbS s
  | .rdI8Lsb => Sys2Proof.Machine.execRdI8Lsb s
  | .rdI8LsbS => Sys2Proof.Machine.execRdI8LsbS s
  | .rdI8Msb => Sys2Proof.Machine.execRdI8Msb s
  | .rdI8MsbS => Sys2Proof.Machine.execRdI8MsbS s
  | .rdU16Lsb => Sys2Proof.Machine.execRdU16Lsb s
  | .rdU16LsbS => Sys2Proof.Machine.execRdU16LsbS s
  | .rdU16Msb => Sys2Proof.Machine.execRdU16Msb s
  | .rdU16MsbS => Sys2Proof.Machine.execRdU16MsbS s
  | .rdI16Lsb => Sys2Proof.Machine.execRdI16Lsb s
  | .rdI16LsbS => Sys2Proof.Machine.execRdI16LsbS s
  | .rdI16Msb => Sys2Proof.Machine.execRdI16Msb s
  | .rdI16MsbS => Sys2Proof.Machine.execRdI16MsbS s
  | .rdU32Lsb => Sys2Proof.Machine.execRdU32Lsb s
  | .rdU32LsbS => Sys2Proof.Machine.execRdU32LsbS s
  | .rdU32Msb => Sys2Proof.Machine.execRdU32Msb s
  | .rdU32MsbS => Sys2Proof.Machine.execRdU32MsbS s
  | .rdI32Lsb => Sys2Proof.Machine.execRdI32Lsb s
  | .rdI32LsbS => Sys2Proof.Machine.execRdI32LsbS s
  | .rdI32Msb => Sys2Proof.Machine.execRdI32Msb s
  | .rdI32MsbS => Sys2Proof.Machine.execRdI32MsbS s
  | .rdU64Lsb => Sys2Proof.Machine.execRdU64Lsb s
  | .rdU64LsbS => Sys2Proof.Machine.execRdU64LsbS s
  | .rdU64Msb => Sys2Proof.Machine.execRdU64Msb s
  | .rdU64MsbS => Sys2Proof.Machine.execRdU64MsbS s
  | .rdI64Lsb => Sys2Proof.Machine.execRdI64Lsb s
  | .rdI64LsbS => Sys2Proof.Machine.execRdI64LsbS s
  | .rdI64Msb => Sys2Proof.Machine.execRdI64Msb s
  | .rdI64MsbS => Sys2Proof.Machine.execRdI64MsbS s
  | .rdUPLsb => Sys2Proof.Machine.execRdUPLsb s
  | .rdUPLsbS => Sys2Proof.Machine.execRdUPLsbS s
  | .rdUPMsb => Sys2Proof.Machine.execRdUPMsb s
  | .rdUPMsbS => Sys2Proof.Machine.execRdUPMsbS s
  | .rdIPLsb => Sys2Proof.Machine.execRdIPLsb s
  | .rdIPLsbS => Sys2Proof.Machine.execRdIPLsbS s
  | .rdIPMsb => Sys2Proof.Machine.execRdIPMsb s
  | .rdIPMsbS => Sys2Proof.Machine.execRdIPMsbS s
  | .wrU8Lsb => Sys2Proof.Machine.execWrU8Lsb s
  | .wrU8LsbS => Sys2Proof.Machine.execWrU8LsbS s
  | .wrU8Msb => Sys2Proof.Machine.execWrU8Msb s
  | .wrU8MsbS => Sys2Proof.Machine.execWrU8MsbS s
  | .wrI8Lsb => Sys2Proof.Machine.execWrI8Lsb s
  | .wrI8LsbS => Sys2Proof.Machine.execWrI8LsbS s
  | .wrI8Msb => Sys2Proof.Machine.execWrI8Msb s
  | .wrI8MsbS => Sys2Proof.Machine.execWrI8MsbS s
  | .wrU16Lsb => Sys2Proof.Machine.execWrU16Lsb s
  | .wrU16LsbS => Sys2Proof.Machine.execWrU16LsbS s
  | .wrU16Msb => Sys2Proof.Machine.execWrU16Msb s
  | .wrU16MsbS => Sys2Proof.Machine.execWrU16MsbS s
  | .wrI16Lsb => Sys2Proof.Machine.execWrI16Lsb s
  | .wrI16LsbS => Sys2Proof.Machine.execWrI16LsbS s
  | .wrI16Msb => Sys2Proof.Machine.execWrI16Msb s
  | .wrI16MsbS => Sys2Proof.Machine.execWrI16MsbS s
  | .wrU32Lsb => Sys2Proof.Machine.execWrU32Lsb s
  | .wrU32LsbS => Sys2Proof.Machine.execWrU32LsbS s
  | .wrU32Msb => Sys2Proof.Machine.execWrU32Msb s
  | .wrU32MsbS => Sys2Proof.Machine.execWrU32MsbS s
  | .wrI32Lsb => Sys2Proof.Machine.execWrI32Lsb s
  | .wrI32LsbS => Sys2Proof.Machine.execWrI32LsbS s
  | .wrI32Msb => Sys2Proof.Machine.execWrI32Msb s
  | .wrI32MsbS => Sys2Proof.Machine.execWrI32MsbS s
  | .wrU64Lsb => Sys2Proof.Machine.execWrU64Lsb s
  | .wrU64LsbS => Sys2Proof.Machine.execWrU64LsbS s
  | .wrU64Msb => Sys2Proof.Machine.execWrU64Msb s
  | .wrU64MsbS => Sys2Proof.Machine.execWrU64MsbS s
  | .wrI64Lsb => Sys2Proof.Machine.execWrI64Lsb s
  | .wrI64LsbS => Sys2Proof.Machine.execWrI64LsbS s
  | .wrI64Msb => Sys2Proof.Machine.execWrI64Msb s
  | .wrI64MsbS => Sys2Proof.Machine.execWrI64MsbS s
  | .wrUPLsb => Sys2Proof.Machine.execWrUPLsb s
  | .wrUPLsbS => Sys2Proof.Machine.execWrUPLsbS s
  | .wrUPMsb => Sys2Proof.Machine.execWrUPMsb s
  | .wrUPMsbS => Sys2Proof.Machine.execWrUPMsbS s
  | .wrIPLsb => Sys2Proof.Machine.execWrIPLsb s
  | .wrIPLsbS => Sys2Proof.Machine.execWrIPLsbS s
  | .wrIPMsb => Sys2Proof.Machine.execWrIPMsb s
  | .wrIPMsbS => Sys2Proof.Machine.execWrIPMsbS s
  | .rdbitLsb => Sys2Proof.Machine.execRdbitLsb s
  | .rdbitMsb => Sys2Proof.Machine.execRdbitMsb s
  | .wrbitLsb => Sys2Proof.Machine.execWrbitLsb s
  | .wrbitMsb => Sys2Proof.Machine.execWrbitMsb s
  | .crdU8Lsb => Sys2Proof.Machine.execCrdU8Lsb s
  | .crdU8Msb => Sys2Proof.Machine.execCrdU8Msb s
  | .crdI8Lsb => Sys2Proof.Machine.execCrdI8Lsb s
  | .crdI8Msb => Sys2Proof.Machine.execCrdI8Msb s
  | .crdU16Lsb => Sys2Proof.Machine.execCrdU16Lsb s
  | .crdU16Msb => Sys2Proof.Machine.execCrdU16Msb s
  | .crdI16Lsb => Sys2Proof.Machine.execCrdI16Lsb s
  | .crdI16Msb => Sys2Proof.Machine.execCrdI16Msb s
  | .crdU32Lsb => Sys2Proof.Machine.execCrdU32Lsb s
  | .crdU32Msb => Sys2Proof.Machine.execCrdU32Msb s
  | .crdI32Lsb => Sys2Proof.Machine.execCrdI32Lsb s
  | .crdI32Msb => Sys2Proof.Machine.execCrdI32Msb s
  | .crdU64Lsb => Sys2Proof.Machine.execCrdU64Lsb s
  | .crdU64Msb => Sys2Proof.Machine.execCrdU64Msb s
  | .crdI64Lsb => Sys2Proof.Machine.execCrdI64Lsb s
  | .crdI64Msb => Sys2Proof.Machine.execCrdI64Msb s
  | .crdUPLsb => Sys2Proof.Machine.execCrdUPLsb s
  | .crdUPMsb => Sys2Proof.Machine.execCrdUPMsb s
  | .crdIPLsb => Sys2Proof.Machine.execCrdIPLsb s
  | .crdIPMsb => Sys2Proof.Machine.execCrdIPMsb s
  | .cwrU8Lsb => Sys2Proof.Machine.execCwrU8Lsb s
  | .cwrU8Msb => Sys2Proof.Machine.execCwrU8Msb s
  | .cwrI8Lsb => Sys2Proof.Machine.execCwrI8Lsb s
  | .cwrI8Msb => Sys2Proof.Machine.execCwrI8Msb s
  | .cwrU16Lsb => Sys2Proof.Machine.execCwrU16Lsb s
  | .cwrU16Msb => Sys2Proof.Machine.execCwrU16Msb s
  | .cwrI16Lsb => Sys2Proof.Machine.execCwrI16Lsb s
  | .cwrI16Msb => Sys2Proof.Machine.execCwrI16Msb s
  | .cwrU32Lsb => Sys2Proof.Machine.execCwrU32Lsb s
  | .cwrU32Msb => Sys2Proof.Machine.execCwrU32Msb s
  | .cwrI32Lsb => Sys2Proof.Machine.execCwrI32Lsb s
  | .cwrI32Msb => Sys2Proof.Machine.execCwrI32Msb s
  | .cwrU64Lsb => Sys2Proof.Machine.execCwrU64Lsb s
  | .cwrU64Msb => Sys2Proof.Machine.execCwrU64Msb s
  | .cwrI64Lsb => Sys2Proof.Machine.execCwrI64Lsb s
  | .cwrI64Msb => Sys2Proof.Machine.execCwrI64Msb s
  | .cwrUPLsb => Sys2Proof.Machine.execCwrUPLsb s
  | .cwrUPMsb => Sys2Proof.Machine.execCwrUPMsb s
  | .cwrIPLsb => Sys2Proof.Machine.execCwrIPLsb s
  | .cwrIPMsb => Sys2Proof.Machine.execCwrIPMsb s
  | .crdbitLsb => Sys2Proof.Machine.execCrdbitLsb s
  | .crdbitMsb => Sys2Proof.Machine.execCrdbitMsb s
  | .cwrbitLsb => Sys2Proof.Machine.execCwrbitLsb s
  | .cwrbitMsb => Sys2Proof.Machine.execCwrbitMsb s
  | .seekBegin => Sys2Proof.Machine.execSeekBegin s
  | .seekCur => Sys2Proof.Machine.execSeekCur s
  | .seekEnd => Sys2Proof.Machine.execSeekEnd s
  | .bind => Sys2Proof.Machine.execBind s

end Sys2Proof.Machine
end

