-- ==== Sys2Proof/Machine/Registers.lean ====
section
/-! DEFINITION. The register file as the host sees it (10_state.md R32, R33): what a 32-bit read of an
offset returns and what a write of one does, `CMD` (R34) apart, whose write issues a command. -/

namespace Sys2Proof.Machine

/-- The low half of a 64-bit register (R55). -/
def loHalf (x : Word64) : Word32 := x.setWidth 32

/-- The high half of a 64-bit register (R55). -/
def hiHalf (x : Word64) : Word32 := (x >>> 32).setWidth 32

/-- A 64-bit register with its low half replaced (R55). -/
def withLo (x : Word64) (v : Word32) : Word64 := ((x >>> 32) <<< 32) ||| v.setWidth 64

/-- A 64-bit register with its high half replaced (R55). -/
def withHi (x : Word64) (v : Word32) : Word64 := (v.setWidth 64 <<< 32) ||| (loHalf x).setWidth 64

/-- What a host read of an offset returns (R33); 0 for `CMD` and for an offset not listed (R32). -/
def registerValue (s : State) (offset : Nat) : Word32 :=
  match offset with
  | 0x00 => Config.idValue
  | 0x04 => capWord s.params
  | 0x08 => 0
  | 0x0C => statusWord s
  | 0x10 => s.offset
  | 0x14 => s.count
  | 0x18 => loHalf s.wdata
  | 0x1C => hiHalf s.wdata
  | 0x20 => loHalf s.rdata
  | 0x24 => hiHalf s.rdata
  | 0x28 => loHalf s.scalar
  | 0x2C => hiHalf s.scalar
  | 0x30 => s.pos
  | 0x34 => lengthWord s
  | 0x38 => loHalf s.wbase
  | 0x3C => hiHalf s.wbase
  | 0x40 => s.wlenReq
  | 0x44 => s.winLen
  | 0x48 => loHalf s.winBase
  | 0x4C => hiHalf s.winBase
  | _ => 0

/-- What a host write of an offset other than `CMD`'s does (R33): a write of a read-only register or of
an offset not listed is ignored (R32); a write of POS is unchecked (R47, R353). -/
def writeRegister (s : State) (offset : Nat) (v : Word32) : State :=
  match offset with
  | 0x0C => writeStatus s v
  | 0x10 => { s with offset := v }
  | 0x14 => { s with count := v }
  | 0x18 => { s with wdata := withLo s.wdata v }
  | 0x1C => { s with wdata := withHi s.wdata v }
  | 0x28 => { s with scalar := withLo s.scalar v }
  | 0x2C => { s with scalar := withHi s.scalar v }
  | 0x30 => { s with pos := v }
  | 0x38 => { s with wbase := withLo s.wbase v }
  | 0x3C => { s with wbase := withHi s.wbase v }
  | 0x40 => { s with wlenReq := v }
  | _ => s

/-- The offset of `CMD` (R34). -/
def cmdOffset : Nat := 0x08

/-- The offset of `STATUS` (R37). -/
def statusOffset : Nat := 0x0C

/-- A naturally aligned 32-bit access, the only defined form (R32). -/
def definedAccess (width : AccessWidth) (offset : Nat) : Bool :=
  width == .bits32 && offset % 4 == 0

end Sys2Proof.Machine
end

