-- ==== Sys2Proof/Machine/HostPort.lean ====
section
/-! DEFINITION. What each host-side action does: issuing a command word (10_state.md R34), register and
window-memory accesses (R32, R25), reset between and during commands (70_reset_and_hazards.md R420,
R421), a race on the span (20_memory.md R92(d)), a change of what the port errs on (R432). -/

namespace Sys2Proof.Machine

/-- The next state of an outcome, changed by `f`. -/
def mapNext (f : State → State) :
    Host.Outcome State Fault Refusal → Host.Outcome State Fault Refusal
  | .next s => .next (f s)
  | .fault r => .fault r
  | .refused r => .refused r

/-- Run a command word: decode, then the command's meaning, or ILLEGAL_COMMAND (R34, R110, R383). -/
def runWord (c : Word32) (s : State) : Host.Outcome State Fault Refusal :=
  match decode c with
  | .ok i => exec i s
  | .error _ => .next (raise s .illegalCommand)

/-- A write of `CMD`: BUSY is 1 while the command executes and 0 once its effects are complete, all in
one atomic step (R34, R40). -/
def issue (c : Word32) (s : State) : Host.Outcome State Fault Refusal :=
  mapNext (·.setBusy false) (runWord c (s.setBusy true))

/-- Reset (R420): every piece of block state at its reset value. The parameters are the device's (R11);
window memory, the port and the host's own side are not the block's (R422). -/
def blockReset (s : State) : State :=
  { State.resetWith s.params with
    mem := s.mem, port := s.port, freeCount := s.freeCount, hostQueue := s.hostQueue
    hostData := s.hostData }

/-- The addresses a multi-bit window command at bit offset `B` reaches: none if it faults before its
accesses (R84, R88). -/
def fieldSpan (s : State) (w : WidthClass) (B : Int) : List Nat :=
  match checkWindow s B (sint s.count) (widthBits s.params w) with
  | some _ => []
  | none => spanAddrs s (byteIndex B) (spanLength (subOffset B) (sint s.count).toNat)

/-- The address a single-bit command at bit offset `B` reaches: none if it faults first (R84, R290). -/
def bitSpan (s : State) (B : Int) : List Nat :=
  match indexBit s B with
  | some _ => []
  | none => [winAddr s (byteIndex B)]

/-- The byte span of the command with legal fields `f`, by its operation (R54, R102, R106). -/
def fieldsSpan (f : Fields) (s : State) : List Nat :=
  match f.op.toNat with
  | 1 | 2 => if f.src = 0 then fieldSpan s (WidthClass.ofBits f.wid) (sint s.offset) else []
  | 3 | 4 => bitSpan s (sint s.offset)
  | 5 | 6 => fieldSpan s (WidthClass.ofBits f.wid) (sint s.pos)
  | 7 | 8 => bitSpan s (sint s.pos)
  | _ => []

/-- The byte span of a command word, empty for an illegal one (R113). -/
def commandSpan (c : Word32) (s : State) : List Nat :=
  if (Fields.ofWord c).wf then fieldsSpan (Fields.ofWord c) s else []

/-- Reset during a command (R421): the command is abandoned, every byte of its span holds an
unspecified value, other bytes are unchanged (log 10). -/
def abandon (c : Word32) (s : State) : State := blockReset (scramble s (commandSpan c s))

/-- The race is over: the free values its reads took, one for each window index at most, are used, and
the bytes left at the addresses are free values too (R92(d)). -/
def settleRace (reads : Nat) (addrs : List Nat) (t : State) : State :=
  scramble ((t.setRaced []).useFree reads) addrs

/-- A command raced on the given addresses (R92(d), R431): each byte it reads there, and the bytes left
there, are unconstrained (log 9). -/
def issueRaced (c : Word32) (addrs : List Nat) (s : State) : Host.Outcome State Fault Refusal :=
  mapNext (settleRace s.winLen.toNat addrs) (issue c (s.setRaced addrs))

/-- A host write of a register (R32): `CMD` issues a command. -/
def hostWrite (width : AccessWidth) (offset : Nat) (data : Word32) (s : State) :
    Host.Outcome State Fault Refusal :=
  if s.busy then .refused .hostAccessWhileBusy
  else if !definedAccess width offset then .refused .hostAccessForm
  else if offset = cmdOffset then issue data s
  else .next (writeRegister s offset data)

/-- A host read of a register (R32). While BUSY only STATUS may be read (R430). -/
def hostRead (width : AccessWidth) (offset : Nat) (s : State) : Host.Outcome State Fault Refusal :=
  if s.busy && !(offset == statusOffset) then .refused .hostAccessWhileBusy
  else if !definedAccess width offset then .refused .hostAccessForm
  else .next (s.setHostData (registerValue s offset))

/-- One host-side action. -/
def hostStep (act : HostAction) (s : State) : Host.Outcome State Fault Refusal :=
  match act with
  | .regWrite width offset data => hostWrite width offset data s
  | .regRead width offset => hostRead width offset s
  | .memWrite addr value =>
    if s.busy then .refused .hostAccessWhileBusy
    else if s.params.addrSpace ≤ addr then .fault .noSuchAddress
    else .next (s.setMem (s.mem.write addr value))
  | .memRead addr =>
    if s.busy then .refused .hostAccessWhileBusy
    else if s.params.addrSpace ≤ addr then .fault .noSuchAddress
    else .next (s.setHostData ((s.mem.read addr).setWidth 32))
  | .reset => .next (blockReset s)
  | .abandonedCommand word =>
    if s.busy then .refused .hostAccessWhileBusy else .next (abandon word s)
  | .racedCommand word addrs =>
    if s.busy then .refused .hostAccessWhileBusy
    else if addrs.any (s.params.addrSpace ≤ ·) then .fault .noSuchAddress
    else issueRaced word addrs s
  | .setPort p => .next { s with port := p }

end Sys2Proof.Machine
end

