-- ==== Sys2Proof/Machine/Step.lean ====
section
/-! DEFINITION. One step: the next host-side action of the queue, or, with none to come, the block
idles and holds all its state (60_exceptions.md R401). The block fetches nothing (10_state.md R31):
a command reaches it only as a host write of `CMD` (R34). -/

namespace Sys2Proof.Machine

/-- One step of the machine (R25, R92(c)). -/
def step (s : State) : Host.Outcome State Fault Refusal :=
  match s.hostQueue with
  | [] => .next s
  | act :: rest => hostStep act { s with hostQueue := rest }

/-- `s` with the write of a command word to `CMD` as its next host-side action, and BUSY clear, as the
host must have seen it before that write (R430). -/
def State.withFetchWord (s : State) (nbits w : Nat) : State :=
  { s with
    busy := false
    hostQueue := .regWrite .bits32 cmdOffset (BitVec.ofNat 32 (w % 2 ^ nbits)) :: s.hostQueue }

end Sys2Proof.Machine
end

