-- ==== Sys2Proof/Safety.lean ====
section
/-! DEFINITION. What holds of every state a device can be in, what a safe run is, and when a command's
operands are legal, in the terms the statements use. -/

namespace Sys2Proof.Machine

/-- The invariant of the block (R9, R10, R40, R50, I8): window memory has its canonical form and lies in
the ADDR_W-bit space, the window is shorter than 2^28 bytes and its base has ADDR_W bits, an unbound
device has no window, BUSY is clear and no race is on between steps, and ERR is a code that is produced. -/
structure State.Inv (s : State) : Prop where
  memCanonical : s.mem.wf = true
  memInSpace : ∀ cell ∈ s.mem, cell.1 < s.params.addrSpace
  winLenBound : s.winLen.toNat < Config.maxLen
  winBaseBound : s.winBase.toNat < s.params.addrSpace
  unboundEmpty : s.bound = false → s.winBase = 0 ∧ s.winLen = 0
  notBusy : s.busy = false
  noRace : s.raced = []
  errProduced : s.err ≠ .notSupported

/-- An outcome with a next state. -/
def Completes (o : Host.Outcome State Fault Refusal) : Prop := ∃ t, o = .next t

/-- A host-side action that keeps the host's duties (R10, R32): aligned 32-bit register accesses, and
memory accesses inside the address space. -/
def HostAction.dutiful (p : Params) : HostAction → Bool
  | .regWrite width offset _ => definedAccess width offset
  | .regRead width offset => definedAccess width offset
  | .memWrite addr _ => addr < p.addrSpace
  | .memRead addr => addr < p.addrSpace
  | .reset => true
  | .abandonedCommand _ => true
  | .racedCommand _ addrs => addrs.all (· < p.addrSpace)
  | .setPort _ => true

/-! ## When a command's operands are legal -/

/-- The window and the operands of a multi-bit window command at bit offset `B` pass R171. -/
structure FieldLegal (s : State) (w : WidthClass) (B : Int) : Prop where
  bound : s.bound = true
  countNonneg : 0 ≤ sint s.count
  countWidth : sint s.count ≤ (widthBits s.params w : Int)
  offsetNonneg : 0 ≤ B
  inWindow : B + sint s.count ≤ 8 * (s.winLen.toNat : Int)

/-- The operands of a scalar command pass R173. -/
structure ScalarLegal (s : State) (w : WidthClass) : Prop where
  countNonneg : 0 ≤ sint s.count
  countWidth : sint s.count ≤ (widthBits s.params w : Int)
  offsetNonneg : 0 ≤ sint s.offset
  inScalar : sint s.offset + sint s.count ≤ (widthBits s.params w : Int)

/-- The window and the operand of a single-bit command at bit offset `B` pass R290. -/
structure BitLegal (s : State) (B : Int) : Prop where
  bound : s.bound = true
  indexNonneg : 0 ≤ B / 8
  indexInWindow : B / 8 < (s.winLen.toNat : Int)

/-- The byte count of the span of a multi-bit window command at bit offset `B` (R21). -/
def fieldBytes (s : State) (B : Int) : Nat := spanLength (subOffset B) (sint s.count).toNat

/-- The addresses of that span (R21, R84). -/
def fieldAddrs (s : State) (B : Int) : List Nat := spanAddrs s (byteIndex B) (fieldBytes s B)

/-- The port signals no error on reading these addresses (R386, 92 D24). -/
def PortReads (s : State) (addrs : List Nat) : Prop := ∀ x ∈ addrs, x ∉ s.port.readErrs

/-- The port signals no error on reading or writing these addresses. -/
def PortWrites (s : State) (addrs : List Nat) : Prop :=
  ∀ x ∈ addrs, x ∉ s.port.readErrs ∧ x ∉ s.port.writeErrs

/-- The little-endian byte image of the scalar register (R82). -/
def scalarBytes (x : Word64) (j : Nat) : Byte := (x >>> (8 * j)).setWidth 8

/-- `s` with the operands of a window command in OFFSET, COUNT and WDATA (R111). -/
def withOperands (s : State) (B n : Word32) (v : Word64) : State :=
  { s with offset := B, count := n, wdata := v }

end Sys2Proof.Machine
end

