-- ==== Sys2Proof/Certificates/Slice0/Obligations.lean ====
section
/-! DEFINITION. The statements for the provers, from the numbered rules of spec/. A command never stops
the machine (R380), so every statement of a result is an equation `exec … = .next …`. -/

section

open Sys2Proof Sys2Proof.Machine

/-! ## Encoding -/

/-- Decoding and encoding agree on every word and every command (R110, R114, R118). -/
def Obligations.DecodeAgreesWithEncode : Prop :=
  ∀ (c : Word32) (i : Instr), decode c = .ok i ↔ c = encode i

/-- The words the decoder rejects are those that fail a line of R110, written out on the word's bits. -/
def Obligations.IllegalWordsAreTheListedOnes : Prop :=
  ∀ c : Word32,
    (∃ e, decode c = .error e) ↔
      (c.extractLsb' 12 20 ≠ 0 ∨
        (c.extractLsb' 0 4 = 0 ∨ 11 ≤ (c.extractLsb' 0 4).toNat) ∨
        (c.extractLsb' 0 4 ∈ [1, 2, 5, 6] ∧ 4 < (c.extractLsb' 5 3).toNat) ∨
        (c.extractLsb' 0 4 ∈ [3, 4, 7, 8, 9, 10] ∧
          (c.extractLsb' 5 3 ≠ 0 ∨ c.extractLsb' 8 1 ≠ 0)) ∨
        (c.extractLsb' 0 4 ∉ [1, 2] ∧ c.extractLsb' 9 1 ≠ 0) ∨
        (c.extractLsb' 0 4 ≠ 9 ∧ c.extractLsb' 10 2 ≠ 0) ∨
        (c.extractLsb' 0 4 = 9 ∧ c.extractLsb' 10 2 = 3) ∨
        (c.extractLsb' 0 4 ∈ [9, 10] ∧ c.extractLsb' 4 1 ≠ 0))

/-- Exactly 132 of the 2^32 words are legal (R109). -/
def Obligations.LegalWordsNumber132 : Prop :=
  ∃ words : List Word32, words.length = 132 ∧ words.Nodup ∧
    ∀ c : Word32, c ∈ words ↔ ∃ i, decode c = .ok i

/-- The example words of R118 and the all-zero word of R113. -/
def Obligations.SampleWordsDecode : Prop :=
  decode 0x00000001 = .ok .rdU8Lsb ∧ decode 0x00000011 = .ok .rdU8Msb ∧
    decode 0x00000351 = .ok .rdI32MsbS ∧ decode 0x00000062 = .ok .wrU64Lsb ∧
    decode 0x00000013 = .ok .rdbitMsb ∧ decode 0x00000085 = .ok .crdUPLsb ∧
    decode 0x00000809 = .ok .seekEnd ∧ decode 0x0000000A = .ok .bind ∧
    ∃ e, decode 0x00000000 = .error e

/-! ## The step -/

/-- A host write of a legal command word to CMD (offset 0x08) runs that command: the step is `exec` of
the decoded command on the state without the write in its queue. BUSY, set and cleared within the step
(R40, log 6), shows in nothing. The queue of host-side actions is the model's own (log 3). -/
def Obligations.StepRunsTheDecodedCommand : Prop :=
  ∀ (s : State) (rest : List HostAction) (c : Word32) (i : Instr),
    s.busy = false → s.hostQueue = .regWrite .bits32 0x08 c :: rest → decode c = .ok i →
      step s = exec i { s with hostQueue := rest }

/-- A write of an illegal word to CMD sets ERR to ILLEGAL_COMMAND and STICKY, and nothing else (R383). -/
def Obligations.IllegalWordOnlySetsStatus : Prop :=
  ∀ (s : State) (rest : List HostAction) (c : Word32),
    s.busy = false → s.hostQueue = .regWrite .bits32 0x08 c :: rest → (∀ i, encode i ≠ c) →
      step s = .next { s with hostQueue := rest, err := .illegalCommand, sticky := true }

/-- With no host-side action to come, the block is idle and holds all its state. That this is a step of
the model, with the state as its next state, is the model's choice (log 14). -/
def Obligations.IdleStepHoldsAllState : Prop :=
  ∀ s : State, s.hostQueue = [] → step s = .next s

/-! ## Reads -/

/-- A legal window read sets RDATA to the presentation of the bit-by-bit reference reading of the field,
clears ERR, and changes nothing else (R150, R152, R172, R174). What each index reads is `winRead`: the
byte held there, or in a race any byte (log 9); the port errs on none of them (log 7). -/
def Obligations.WindowReadIsTheReferenceReading : Prop :=
  ∀ (w : WidthClass) (g : Sign) (o : Order) (s : State),
    FieldLegal s w (sint s.offset) → PortReads s (fieldAddrs s (sint s.offset)) →
      exec (Instr.read w g o .window) s = .next { s with
        rdata := present g (widthBits s.params w) (sint s.count).toNat
          (BitVec.ofNat 64
            (refRead (winRead s) o (sint s.offset).toNat (sint s.count).toNat))
        err := .ok }

/-- How a read result is presented in RDATA (R174): an unsigned field as it is, every bit above a signed
field a copy of the field's bit n-1, and 0 for no bits. -/
def Obligations.PresentationExtendsTheField : Prop :=
  ∀ (p : Params) (w : WidthClass) (n : Nat) (r : Word64), n ≤ widthBits p w →
    present .unsigned (widthBits p w) n r = r ∧
    present .signed (widthBits p w) 0 r = 0 ∧
    (0 < n → ∀ i < 64,
      (present .signed (widthBits p w) n r).getLsbD i = r.getLsbD (if i < n then i else n - 1))

/-- A legal scalar read reads the scalar's little-endian byte image as a window (R82, R154, R173). -/
def Obligations.ScalarReadIsTheReferenceReading : Prop :=
  ∀ (w : WidthClass) (g : Sign) (o : Order) (s : State), ScalarLegal s w →
    exec (Instr.read w g o .scalar) s = .next { s with
      rdata := present g (widthBits s.params w) (sint s.count).toNat
        (BitVec.ofNat 64
          (refRead (scalarBytes s.scalar) o (sint s.offset).toNat (sint s.count).toNat))
      err := .ok }

/-- A legal single-bit read sets RDATA to the stream bit at OFFSET, 0 or 1 (R22, R291, R292). -/
def Obligations.BitReadReturnsTheStreamBit : Prop :=
  ∀ (o : Order) (s : State), BitLegal s (sint s.offset) →
    PortReads s [winAddr s (byteIndex (sint s.offset))] →
      exec (Instr.readBit o) s = .next { s with
        rdata := if streamBit (winRead s) o (sint s.offset).toNat then 1 else 0
        err := .ok }

/-- A legal single-bit read is the unsigned 8-bit field read of one bit there (R291, R292). -/
def Obligations.BitReadIsAOneBitFieldRead : Prop :=
  ∀ (o : Order) (s : State), BitLegal s (sint s.offset) → s.count = 1 →
    exec (Instr.readBit o) s = exec (Instr.read .w8 .unsigned o .window) s

/-- A legal cursor read reads the field at POS and advances POS by COUNT (R300, R301). -/
def Obligations.CursorReadReadsAndAdvances : Prop :=
  ∀ (w : WidthClass) (g : Sign) (o : Order) (s : State),
    FieldLegal s w (sint s.pos) → PortReads s (fieldAddrs s (sint s.pos)) →
      exec (Instr.cursorRead w g o) s = .next { s with
        rdata := present g (widthBits s.params w) (sint s.count).toNat
          (BitVec.ofNat 64 (refRead (winRead s) o (sint s.pos).toNat (sint s.count).toNat))
        pos := s.pos + s.count
        err := .ok }

/-- A legal cursor bit read reads the stream bit at POS and advances POS by 1 (R345, R346). -/
def Obligations.CursorBitReadReadsAndAdvances : Prop :=
  ∀ (o : Order) (s : State), BitLegal s (sint s.pos) →
    PortReads s [winAddr s (byteIndex (sint s.pos))] →
      exec (Instr.cursorReadBit o) s = .next { s with
        rdata := if streamBit (winRead s) o (sint s.pos).toNat then 1 else 0
        pos := s.pos + 1
        err := .ok }

/-! ## Writes -/

/-- A legal window write, with an infallible span no longer than the address space, gives every stream
bit of the span its reference value, and leaves every byte outside the span as it was; beside window
memory it clears ERR and changes nothing else (R147, R151, R152, R232). What the port errs on is data of
the state (log 7); the longer spans of a small address space are `LongSpanWriteKeepsItsFrame` (log 11). -/
def Obligations.WindowWriteSetsExactlyTheField : Prop :=
  ∀ (w : WidthClass) (g : Sign) (o : Order) (s : State), s.mem.wf = true →
    FieldLegal s w (sint s.offset) → PortWrites s (fieldAddrs s (sint s.offset)) →
    fieldBytes s (sint s.offset) ≤ s.params.addrSpace →
      ∃ m, exec (Instr.write w g o .window) s = .next { s with mem := m, err := .ok } ∧
        m.wf = true ∧
        (∀ p, byteIndex (sint s.offset) ≤ p / 8 →
          p / 8 < byteIndex (sint s.offset) + fieldBytes s (sint s.offset) →
            streamBit (heldByte { s with mem := m }) o p =
              refWriteBit (winRead s) o (sint s.offset).toNat (sint s.count).toNat s.wdata p) ∧
        ∀ x, x ∉ fieldAddrs s (sint s.offset) → m.read x = s.mem.read x

/-- A legal write whose span is longer than the whole address space (ADDR_W of 3 or less) completes, and
every address of the span then holds the byte merged for one of the span's indices with that address:
its stream bits are the reference ones of that index. Which of them is a free choice of the model (R87,
log 11), so the statement holds for every choice. The rest of memory is unchanged. -/
def Obligations.LongSpanWriteKeepsItsFrame : Prop :=
  ∀ (w : WidthClass) (g : Sign) (o : Order) (s : State), s.mem.wf = true →
    (FieldLegal s w (sint s.offset) → PortWrites s (fieldAddrs s (sint s.offset)) →
      s.params.addrSpace < fieldBytes s (sint s.offset) →
        ∃ m f, exec (Instr.write w g o .window) s =
            .next { s with mem := m, freeCount := f, err := .ok } ∧
          (∀ x ∈ fieldAddrs s (sint s.offset), ∃ j < fieldBytes s (sint s.offset),
            x = winAddr s (byteIndex (sint s.offset) + j) ∧
              ∀ p, p / 8 = byteIndex (sint s.offset) + j →
                streamBit (fun _ => m.read x) o p =
                  refWriteBit (winRead s) o (sint s.offset).toNat (sint s.count).toNat s.wdata p) ∧
          ∀ x, x ∉ fieldAddrs s (sint s.offset) → m.read x = s.mem.read x) ∧
    (FieldLegal s w (sint s.pos) → PortWrites s (fieldAddrs s (sint s.pos)) →
      s.params.addrSpace < fieldBytes s (sint s.pos) →
        ∃ m f, exec (Instr.cursorWrite w g o) s =
            .next { s with mem := m, freeCount := f, pos := s.pos + s.count, err := .ok } ∧
          (∀ x ∈ fieldAddrs s (sint s.pos), ∃ j < fieldBytes s (sint s.pos),
            x = winAddr s (byteIndex (sint s.pos) + j) ∧
              ∀ p, p / 8 = byteIndex (sint s.pos) + j →
                streamBit (fun _ => m.read x) o p =
                  refWriteBit (winRead s) o (sint s.pos).toNat (sint s.count).toNat s.wdata p) ∧
          ∀ x, x ∉ fieldAddrs s (sint s.pos) → m.read x = s.mem.read x)

/-- A legal cursor write writes the field at POS and advances POS by COUNT (R300, R301). -/
def Obligations.CursorWriteSetsTheFieldAndAdvances : Prop :=
  ∀ (w : WidthClass) (g : Sign) (o : Order) (s : State), s.mem.wf = true →
    FieldLegal s w (sint s.pos) → PortWrites s (fieldAddrs s (sint s.pos)) →
    fieldBytes s (sint s.pos) ≤ s.params.addrSpace →
      ∃ m, exec (Instr.cursorWrite w g o) s =
          .next { s with mem := m, pos := s.pos + s.count, err := .ok } ∧
        m.wf = true ∧
        (∀ p, byteIndex (sint s.pos) ≤ p / 8 →
          p / 8 < byteIndex (sint s.pos) + fieldBytes s (sint s.pos) →
            streamBit (heldByte { s with mem := m }) o p =
              refWriteBit (winRead s) o (sint s.pos).toNat (sint s.count).toNat s.wdata p) ∧
        ∀ x, x ∉ fieldAddrs s (sint s.pos) → m.read x = s.mem.read x

/-- A legal scalar write sets the field's stream bits of the scalar's byte image, keeps the others, and
keeps SCALAR[63:W]; beside SCALAR it clears ERR and changes nothing else (R46, R154, R233). -/
def Obligations.ScalarWriteSetsExactlyTheField : Prop :=
  ∀ (w : WidthClass) (g : Sign) (o : Order) (s : State), ScalarLegal s w →
    ∃ v, exec (Instr.write w g o .scalar) s = .next { s with scalar := v, err := .ok } ∧
      (∀ p < widthBits s.params w,
        streamBit (scalarBytes v) o p =
          refWriteBit (scalarBytes s.scalar) o (sint s.offset).toNat (sint s.count).toNat
            s.wdata p) ∧
      ∀ i, widthBits s.params w ≤ i → v.getLsbD i = s.scalar.getLsbD i

/-- A legal single-bit write sets the stream bit at OFFSET to WDATA[0] and keeps the other 7 bits of its
byte and every other byte (R151, R293, R294). -/
def Obligations.BitWriteSetsExactlyOneBit : Prop :=
  ∀ (o : Order) (s : State), s.mem.wf = true → BitLegal s (sint s.offset) →
    PortWrites s [winAddr s (byteIndex (sint s.offset))] →
      ∃ m, exec (Instr.writeBit o) s = .next { s with mem := m, err := .ok } ∧
        m.wf = true ∧
        (∀ p, p / 8 = byteIndex (sint s.offset) →
          streamBit (heldByte { s with mem := m }) o p =
            if p = (sint s.offset).toNat then s.wdata.getLsbD 0 else streamBit (winRead s) o p) ∧
        ∀ x, x ≠ winAddr s (byteIndex (sint s.offset)) → m.read x = s.mem.read x

/-- A legal cursor bit write sets the stream bit at POS to WDATA[0] and advances POS by 1 (R347, R348). -/
def Obligations.CursorBitWriteSetsOneBitAndAdvances : Prop :=
  ∀ (o : Order) (s : State), s.mem.wf = true → BitLegal s (sint s.pos) →
    PortWrites s [winAddr s (byteIndex (sint s.pos))] →
      ∃ m, exec (Instr.cursorWriteBit o) s =
          .next { s with mem := m, pos := s.pos + 1, err := .ok } ∧
        m.wf = true ∧
        (∀ p, p / 8 = byteIndex (sint s.pos) →
          streamBit (heldByte { s with mem := m }) o p =
            if p = (sint s.pos).toNat then s.wdata.getLsbD 0 else streamBit (winRead s) o p) ∧
        ∀ x, x ≠ winAddr s (byteIndex (sint s.pos)) → m.read x = s.mem.read x

/-- Signed and unsigned writes have identical effects (R234), the cursor writes too (R105). -/
def Obligations.SignednessDoesNotChangeAWrite : Prop :=
  ∀ (w : WidthClass) (o : Order) (k : Source) (s : State),
    exec (Instr.write w .signed o k) s = exec (Instr.write w .unsigned o k) s ∧
      exec (Instr.cursorWrite w .signed o) s = exec (Instr.cursorWrite w .unsigned o) s

/-- A pointer-width command is the 64-bit one when PTR_W = 64 and the 32-bit one when PTR_W = 32
(R175). -/
def Obligations.PointerClassIsTheFixedClass : Prop :=
  ∀ (g : Sign) (o : Order) (k : Source) (s : State) (w : WidthClass),
    w = (if s.params.ptr64 then .w64 else .w32) →
      exec (Instr.read .ptr g o k) s = exec (Instr.read w g o k) s ∧
        exec (Instr.write .ptr g o k) s = exec (Instr.write w g o k) s ∧
        exec (Instr.cursorRead .ptr g o) s = exec (Instr.cursorRead w g o) s ∧
        exec (Instr.cursorWrite .ptr g o) s = exec (Instr.cursorWrite w g o) s

/-- A legal single-bit write is the 8-bit field write of one bit there (R294). -/
def Obligations.BitWriteIsAOneBitFieldWrite : Prop :=
  ∀ (o : Order) (s : State), BitLegal s (sint s.offset) → s.count = 1 →
    exec (Instr.writeBit o) s = exec (Instr.write .w8 .unsigned o .window) s

/-! ## Laws of reads and writes -/

/-- Round trip: a legal write followed by the read of the same field in the same order returns the low n
bits of the value written, presented (R155), when no other agent races on the field (R431). -/
def Obligations.WrittenFieldReadsBack : Prop :=
  ∀ (w : WidthClass) (g g' : Sign) (o : Order) (s : State), s.mem.wf = true → s.raced = [] →
    FieldLegal s w (sint s.offset) → PortWrites s (fieldAddrs s (sint s.offset)) →
    fieldBytes s (sint s.offset) ≤ s.params.addrSpace →
      ∃ t u, exec (Instr.write w g o .window) s = .next t ∧
        exec (Instr.read w g' o .window) t = .next u ∧ u.err = .ok ∧
        u.rdata = present g' (widthBits s.params w) (sint s.count).toNat
          (trunc s.wdata (sint s.count).toNat)

/-- Two legal writes of one order to disjoint bit ranges of a window that does not overlap itself leave
the same window memory in either order (R156), when no other agent races on it (R431). -/
def Obligations.DisjointWritesCommute : Prop :=
  ∀ (w₁ w₂ : WidthClass) (g₁ g₂ : Sign) (o : Order) (s : State) (B₁ n₁ B₂ n₂ : Word32)
    (v₁ v₂ : Word64),
    s.mem.wf = true → s.winLen.toNat ≤ s.params.addrSpace →
    s.port = { readErrs := [], writeErrs := [] } → s.raced = [] →
    FieldLegal (withOperands s B₁ n₁ v₁) w₁ (sint B₁) →
    FieldLegal (withOperands s B₂ n₂ v₂) w₂ (sint B₂) →
    (sint B₁ + sint n₁ ≤ sint B₂ ∨ sint B₂ + sint n₂ ≤ sint B₁) →
      ∃ t₁ t₂ u₁ u₂,
        exec (Instr.write w₁ g₁ o .window) (withOperands s B₁ n₁ v₁) = .next t₁ ∧
        exec (Instr.write w₂ g₂ o .window) (withOperands t₁ B₂ n₂ v₂) = .next u₁ ∧
        exec (Instr.write w₂ g₂ o .window) (withOperands s B₂ n₂ v₂) = .next t₂ ∧
        exec (Instr.write w₁ g₁ o .window) (withOperands t₂ B₁ n₁ v₁) = .next u₂ ∧
        u₁.mem = u₂.mem

/-- The width class changes neither the value of a field that is legal in both classes nor the effect of
writing it (R83). -/
def Obligations.WidthClassDoesNotChangeAField : Prop :=
  ∀ (w₁ w₂ : WidthClass) (g₁ g₂ : Sign) (o : Order) (s : State),
    FieldLegal s w₁ (sint s.offset) → FieldLegal s w₂ (sint s.offset) →
      exec (Instr.read w₁ .unsigned o .window) s = exec (Instr.read w₂ .unsigned o .window) s ∧
        exec (Instr.write w₁ g₁ o .window) s = exec (Instr.write w₂ g₂ o .window) s

/-- Order duality (the general sentence of R157): an MSB field is the bit reversal of the LSB field of the
window with every byte bit-reversed. So a whole byte that starts at its own first bit reads the same in
both orders; R157's sentence on that one case says otherwise, against R134, R135 and R150, which the
model follows (log 19). -/
def Obligations.MsbFieldIsTheReversedLsbField : Prop :=
  (∀ (byte : Nat → Byte) (B n : Nat), n ≤ 64 →
    BitVec.ofNat n (refRead byte .msb B n) =
      revBits (BitVec.ofNat n (refRead (fun i => (byte i).reverse) .lsb B n))) ∧
  ∀ (byte : Nat → Byte) (a : Nat),
    refRead byte .msb (8 * a) 8 = (byte a).toNat ∧ refRead byte .lsb (8 * a) 8 = (byte a).toNat

/-- The mask of the MSB insert is the field mask with the bits of each byte reversed (R138). -/
def Obligations.MsbInsertMaskIsByteBitReversal : Prop :=
  ∀ SW ∈ [8, 16, 32, 64], ∀ o n : Nat, 1 ≤ n → o + n ≤ SW →
    revBytes (fieldMask SW n <<< (SW - n - o)) = revByteBits (fieldMask SW n <<< o)

/-- Reversing the bits of each byte is reversing all bits, then all bytes (R19). -/
def Obligations.ByteBitReversalIsTheComposition : Prop :=
  ∀ (k : Nat) (x : BitVec (8 * k)), revByteBits x = revBytes (revBits x)

/-! ## Cursor, seek and bind -/

/-- Every cursor command is the window command at OFFSET = POS, then the advance by COUNT, or by 1 for a
bit command, when it succeeded, and no advance when it faulted (R300). -/
def Obligations.CursorDelegatesToTheWindowCommand : Prop :=
  ∀ (w : WidthClass) (g : Sign) (o : Order) (s : State),
    (∃ t, exec (Instr.read w g o .window) { s with offset := s.pos } = .next t ∧
      exec (Instr.cursorRead w g o) s = .next { t with
        offset := s.offset, pos := if t.err = .ok then s.pos + s.count else s.pos }) ∧
    (∃ t, exec (Instr.write w g o .window) { s with offset := s.pos } = .next t ∧
      exec (Instr.cursorWrite w g o) s = .next { t with
        offset := s.offset, pos := if t.err = .ok then s.pos + s.count else s.pos }) ∧
    (∃ t, exec (Instr.readBit o) { s with offset := s.pos } = .next t ∧
      exec (Instr.cursorReadBit o) s = .next { t with
        offset := s.offset, pos := if t.err = .ok then s.pos + 1 else s.pos }) ∧
    (∃ t, exec (Instr.writeBit o) { s with offset := s.pos } = .next t ∧
      exec (Instr.cursorWriteBit o) s = .next { t with
        offset := s.offset, pos := if t.err = .ok then s.pos + 1 else s.pos })

/-- After a successful cursor command, POS as an integer is what it was plus COUNT, or plus 1 for a bit
command: the addition never wraps (R300, R303), the window being shorter than 2^28 bytes (R50). -/
def Obligations.CursorAdvanceNeverWraps : Prop :=
  ∀ (w : WidthClass) (g : Sign) (o : Order) (s t : State), s.winLen.toNat < Config.maxLen →
    t.err = .ok →
      (exec (Instr.cursorRead w g o) s = .next t ∨ exec (Instr.cursorWrite w g o) s = .next t →
        sint t.pos = sint s.pos + sint s.count ∧ sint t.pos ≤ 8 * (s.winLen.toNat : Int)) ∧
      (exec (Instr.cursorReadBit o) s = .next t ∨ exec (Instr.cursorWriteBit o) s = .next t →
        sint t.pos = sint s.pos + 1 ∧ sint t.pos ≤ 8 * (s.winLen.toNat : Int))

/-- SEEK (R349): NULL_BUFFER when no window is bound, else POS is assigned from the origin, modulo 2^32
and unchecked, and nothing but POS and ERR changes. -/
def Obligations.SeekAssignsThePosition : Prop :=
  ∀ s : State,
    (s.bound = false → ∀ g,
      exec (Instr.seek g) s = .next { s with err := .nullBuffer, sticky := true }) ∧
    (s.bound = true →
      exec .seekBegin s = .next { s with pos := s.offset, err := .ok } ∧
      exec .seekCur s = .next { s with pos := s.pos + s.offset, err := .ok } ∧
      exec .seekEnd s = .next { s with pos := lengthWord s + s.offset, err := .ok })

/-- BIND (R370, R389): SIZE at a request of 2^28 bytes or more, with everything else kept; any shorter
request becomes the window, at WBASE[ADDR_W-1:0], with POS at 0. WIN_BASE is held in 64 bits
(log 16). -/
def Obligations.BindBindsTheWindow : Prop :=
  decode 0x0000000A = .ok .bind ∧
  ∀ s : State,
    (2 ^ 28 ≤ s.wlenReq.toNat →
      exec .bind s = .next { s with err := .size, sticky := true }) ∧
    (s.wlenReq.toNat < 2 ^ 28 →
      exec .bind s = .next { s with
        bound := true
        winBase := BitVec.ofNat 64 (s.wbase.toNat % s.params.addrSpace)
        winLen := s.wlenReq
        pos := 0
        err := .ok })

/-! ## Faults -/

/-- While no window is bound, every command that uses the window ends in NULL_BUFFER and changes only ERR
and STICKY; the scalar forms and BIND never raise it (R385). -/
def Obligations.UnboundWindowCommandsFault : Prop :=
  ∀ (w : WidthClass) (g : Sign) (o : Order) (k : Origin) (s : State),
    (s.bound = false → ∀ i ∈ [Instr.read w g o .window, Instr.write w g o .window,
        Instr.cursorRead w g o, Instr.cursorWrite w g o, Instr.readBit o, Instr.writeBit o,
        Instr.cursorReadBit o, Instr.cursorWriteBit o, Instr.seek k],
      exec i s = .next { s with err := .nullBuffer, sticky := true }) ∧
    ∀ i ∈ [Instr.read w g o .scalar, Instr.write w g o .scalar, .bind],
      ∃ t, exec i s = .next t ∧ t.err ≠ .nullBuffer

/-- OUT_OF_RANGE (R384): a multi-bit command whose count is negative or above its width, whose offset is
negative, or whose field ends past the available bits, changes only ERR and STICKY. For the window
forms a window is bound; else R391 puts NULL_BUFFER first. -/
def Obligations.RangeViolationsFault : Prop :=
  ∀ (w : WidthClass) (g : Sign) (o : Order) (s : State),
    (s.bound = true →
      (sint s.count < 0 ∨ (widthBits s.params w : Int) < sint s.count ∨ sint s.offset < 0 ∨
        8 * (s.winLen.toNat : Int) < sint s.offset + sint s.count) →
      ∀ i ∈ [Instr.read w g o .window, Instr.write w g o .window],
        exec i s = .next { s with err := .outOfRange, sticky := true }) ∧
    (s.bound = true →
      (sint s.count < 0 ∨ (widthBits s.params w : Int) < sint s.count ∨ sint s.pos < 0 ∨
        8 * (s.winLen.toNat : Int) < sint s.pos + sint s.count) →
      ∀ i ∈ [Instr.cursorRead w g o, Instr.cursorWrite w g o],
        exec i s = .next { s with err := .outOfRange, sticky := true }) ∧
    ((sint s.count < 0 ∨ (widthBits s.params w : Int) < sint s.count ∨ sint s.offset < 0 ∨
        (widthBits s.params w : Int) < sint s.offset + sint s.count) →
      ∀ i ∈ [Instr.read w g o .scalar, Instr.write w g o .scalar],
        exec i s = .next { s with err := .outOfRange, sticky := true })

/-- INDEX (R388): a single-bit command whose byte index, the arithmetic shift of its offset by 3, is
negative or at least WIN_LEN, changes only ERR and STICKY; a window is bound (R391). -/
def Obligations.IndexViolationsFault : Prop :=
  ∀ (o : Order) (s : State), s.bound = true →
    ((sint s.offset >>> (3 : Nat) < 0 ∨ (s.winLen.toNat : Int) ≤ sint s.offset >>> (3 : Nat)) →
      ∀ i ∈ [Instr.readBit o, Instr.writeBit o],
        exec i s = .next { s with err := .index, sticky := true }) ∧
    ((sint s.pos >>> (3 : Nat) < 0 ∨ (s.winLen.toNat : Int) ≤ sint s.pos >>> (3 : Nat)) →
      ∀ i ∈ [Instr.cursorReadBit o, Instr.cursorWriteBit o],
        exec i s = .next { s with err := .index, sticky := true })

/-- A port error on a byte that a legal read command reads ends it in BUS_ERROR, with only ERR and STICKY
changed (R386). What the port errs on is data of the state (log 7). -/
def Obligations.PortErrorFaultsReads : Prop :=
  ∀ (w : WidthClass) (g : Sign) (o : Order) (s : State),
    (FieldLegal s w (sint s.offset) → ¬ PortReads s (fieldAddrs s (sint s.offset)) →
      exec (Instr.read w g o .window) s = .next { s with err := .busError, sticky := true }) ∧
    (FieldLegal s w (sint s.pos) → ¬ PortReads s (fieldAddrs s (sint s.pos)) →
      exec (Instr.cursorRead w g o) s = .next { s with err := .busError, sticky := true }) ∧
    (BitLegal s (sint s.offset) → ¬ PortReads s [winAddr s (byteIndex (sint s.offset))] →
      exec (Instr.readBit o) s = .next { s with err := .busError, sticky := true }) ∧
    (BitLegal s (sint s.pos) → ¬ PortReads s [winAddr s (byteIndex (sint s.pos))] →
      exec (Instr.cursorReadBit o) s = .next { s with err := .busError, sticky := true })

/-- A port error on a byte of a legal write command ends it in BUS_ERROR: beside ERR and STICKY only the
bytes of its span change, and they hold free values, whatever those are (R386, log 8). -/
def Obligations.PortErrorFaultsWrites : Prop :=
  ∀ (w : WidthClass) (g : Sign) (o : Order) (s : State),
    (FieldLegal s w (sint s.offset) → ¬ PortWrites s (fieldAddrs s (sint s.offset)) →
      ∃ m f, exec (Instr.write w g o .window) s =
          .next { s with mem := m, freeCount := f, err := .busError, sticky := true } ∧
        ∀ x, x ∉ fieldAddrs s (sint s.offset) → m.read x = s.mem.read x) ∧
    (FieldLegal s w (sint s.pos) → ¬ PortWrites s (fieldAddrs s (sint s.pos)) →
      ∃ m f, exec (Instr.cursorWrite w g o) s =
          .next { s with mem := m, freeCount := f, err := .busError, sticky := true } ∧
        ∀ x, x ∉ fieldAddrs s (sint s.pos) → m.read x = s.mem.read x) ∧
    (BitLegal s (sint s.offset) → ¬ PortWrites s [winAddr s (byteIndex (sint s.offset))] →
      ∃ m f, exec (Instr.writeBit o) s =
          .next { s with mem := m, freeCount := f, err := .busError, sticky := true } ∧
        ∀ x, x ≠ winAddr s (byteIndex (sint s.offset)) → m.read x = s.mem.read x) ∧
    (BitLegal s (sint s.pos) → ¬ PortWrites s [winAddr s (byteIndex (sint s.pos))] →
      ∃ m f, exec (Instr.cursorWriteBit o) s =
          .next { s with mem := m, freeCount := f, err := .busError, sticky := true } ∧
        ∀ x, x ≠ winAddr s (byteIndex (sint s.pos)) → m.read x = s.mem.read x)

/-- Atomicity of faults (R387): a command word that ends in any fault but BUS_ERROR leaves all block
state and all window memory as before, except ERR and STICKY. -/
def Obligations.FaultsAreAtomic : Prop :=
  ∀ (c : Word32) (s t : State), s.busy = false → issue c s = .next t → t.err ≠ .ok →
    t.err ≠ .busError → t = { s with err := t.err, sticky := true }

/-- Every word written to CMD completes, in every state, with a code from 0 to 6; a legal word never ends
in ILLEGAL_COMMAND (R382, R390, R437). -/
def Obligations.EveryCommandCompletes : Prop :=
  (∀ (c : Word32) (s : State), ∃ t, issue c s = .next t ∧ t.err ≠ .notSupported ∧
    t.busy = false) ∧
  ∀ (i : Instr) (s : State), ∃ t, exec i s = .next t ∧ t.err ≠ .illegalCommand ∧
    t.err ≠ .notSupported

/-- STICKY (R41): set by every command that ends with ERR not 0, kept by every other; cleared by a host
write of STATUS with bit 8 = 1, and by a host write with bit 8 = 0 left unchanged. -/
def Obligations.StickyFollowsItsRule : Prop :=
  (∀ (c : Word32) (s t : State), issue c s = .next t →
    t.sticky = (s.sticky || decide (t.err ≠ .ok))) ∧
  ∀ (s : State) (v : Word32), s.busy = false →
    hostStep (.regWrite .bits32 0x0C v) s =
      .next { s with sticky := if v.getLsbD 8 then false else s.sticky }

/-- The one code a command ends with, the first that applies in the order of R391. -/
def Obligations.FaultsFollowTheirPriority : Prop :=
  ∀ (w : WidthClass) (g : Sign) (o : Order) (s t : State),
    (exec (Instr.read w g o .window) s = .next t →
      (s.bound = false → t.err = .nullBuffer) ∧
      (s.bound = true → ¬ FieldLegal s w (sint s.offset) → t.err = .outOfRange) ∧
      (FieldLegal s w (sint s.offset) → ¬ PortReads s (fieldAddrs s (sint s.offset)) →
        t.err = .busError) ∧
      (FieldLegal s w (sint s.offset) → PortReads s (fieldAddrs s (sint s.offset)) →
        t.err = .ok)) ∧
    (exec (Instr.write w g o .window) s = .next t →
      (s.bound = false → t.err = .nullBuffer) ∧
      (s.bound = true → ¬ FieldLegal s w (sint s.offset) → t.err = .outOfRange) ∧
      (FieldLegal s w (sint s.offset) → ¬ PortWrites s (fieldAddrs s (sint s.offset)) →
        t.err = .busError) ∧
      (FieldLegal s w (sint s.offset) → PortWrites s (fieldAddrs s (sint s.offset)) →
        t.err = .ok)) ∧
    (exec (Instr.readBit o) s = .next t →
      (s.bound = false → t.err = .nullBuffer) ∧
      (s.bound = true → ¬ BitLegal s (sint s.offset) → t.err = .index) ∧
      (BitLegal s (sint s.offset) → ¬ PortReads s [winAddr s (byteIndex (sint s.offset))] →
        t.err = .busError) ∧
      (BitLegal s (sint s.offset) → PortReads s [winAddr s (byteIndex (sint s.offset))] →
        t.err = .ok)) ∧
    (exec (Instr.writeBit o) s = .next t →
      (s.bound = false → t.err = .nullBuffer) ∧
      (s.bound = true → ¬ BitLegal s (sint s.offset) → t.err = .index) ∧
      (BitLegal s (sint s.offset) → ¬ PortWrites s [winAddr s (byteIndex (sint s.offset))] →
        t.err = .busError) ∧
      (BitLegal s (sint s.offset) → PortWrites s [winAddr s (byteIndex (sint s.offset))] →
        t.err = .ok)) ∧
    (exec (Instr.read w g o .scalar) s = .next t ∨ exec (Instr.write w g o .scalar) s = .next t →
      t.err = if sint s.count < 0 ∨ (widthBits s.params w : Int) < sint s.count ∨ sint s.offset < 0 ∨
          (widthBits s.params w : Int) < sint s.offset + sint s.count then .outOfRange else .ok)

/-! ## What commands read and change -/

/-- Which state each class of command may change, as R54 lists it: the next state is the old one but for
the state named, a write changes no byte of memory outside its span, a scalar write no bit of SCALAR
above its width, STICKY moves on a fault only, and a fault but BUS_ERROR changes ERR and STICKY alone.
The count of free values, which moves on a BUS_ERROR of a write and where a span is longer than the
address space, is the model's own (log 13). -/
def Obligations.CommandsChangeOnlyTheirOwnState : Prop :=
  ∀ (w : WidthClass) (g : Sign) (o : Order) (k : Source) (d : Origin) (s t : State),
    (exec (Instr.read w g o k) s = .next t ∨ exec (Instr.readBit o) s = .next t →
      t = { s with rdata := t.rdata, err := t.err, sticky := t.sticky }) ∧
    (exec (Instr.write w g o .window) s = .next t →
      t = { s with mem := t.mem, freeCount := t.freeCount, err := t.err, sticky := t.sticky } ∧
        ∀ x, x ∉ fieldAddrs s (sint s.offset) → t.mem.read x = s.mem.read x) ∧
    (exec (Instr.write w g o .scalar) s = .next t →
      t = { s with scalar := t.scalar, err := t.err, sticky := t.sticky } ∧
        ∀ i, widthBits s.params w ≤ i → t.scalar.getLsbD i = s.scalar.getLsbD i) ∧
    (exec (Instr.writeBit o) s = .next t →
      t = { s with mem := t.mem, freeCount := t.freeCount, err := t.err, sticky := t.sticky } ∧
        ∀ x, x ≠ winAddr s (byteIndex (sint s.offset)) → t.mem.read x = s.mem.read x) ∧
    (exec (Instr.cursorRead w g o) s = .next t ∨ exec (Instr.cursorReadBit o) s = .next t →
      t = { s with rdata := t.rdata, pos := t.pos, err := t.err, sticky := t.sticky }) ∧
    (exec (Instr.cursorWrite w g o) s = .next t →
      t = { s with
        mem := t.mem, freeCount := t.freeCount, pos := t.pos, err := t.err, sticky := t.sticky } ∧
        ∀ x, x ∉ fieldAddrs s (sint s.pos) → t.mem.read x = s.mem.read x) ∧
    (exec (Instr.cursorWriteBit o) s = .next t →
      t = { s with
        mem := t.mem, freeCount := t.freeCount, pos := t.pos, err := t.err, sticky := t.sticky } ∧
        ∀ x, x ≠ winAddr s (byteIndex (sint s.pos)) → t.mem.read x = s.mem.read x) ∧
    (exec (Instr.seek d) s = .next t →
      t = { s with pos := t.pos, err := t.err, sticky := t.sticky }) ∧
    (exec .bind s = .next t →
      t = { s with
        bound := t.bound, winBase := t.winBase, winLen := t.winLen, pos := t.pos
        err := t.err, sticky := t.sticky }) ∧
    (∀ i, exec i s = .next t →
      (t.err = .ok → t.sticky = s.sticky) ∧
      (t.err ≠ .ok →
        t = { s with mem := t.mem, freeCount := t.freeCount, err := t.err, sticky := true } ∧
          (t.err ≠ .busError → t = { s with err := t.err, sticky := true }))) ∧
    ∀ c, (∀ i, encode i ≠ c) → s.busy = false → issue c s = .next t →
      t = { s with err := t.err, sticky := t.sticky }

/-- Each command reads only the operand registers R112 lists for it: overwriting registers it neither
lists nor writes changes nothing else of its outcome. WRBIT and CWRBIT read bit 0 of WDATA alone. -/
def Obligations.CommandsReadOnlyTheirOperands : Prop :=
  ∀ (w : WidthClass) (g : Sign) (o : Order) (d : Origin) (s : State) (a b : Word32)
    (v x y z : Word64) (e f : Word32) (m : Memory) (q : Port) (v' : Word64),
    exec (Instr.read w g o .window)
        { s with pos := a, wdata := v, scalar := x, wbase := z, wlenReq := e } =
      mapNext (fun t => { t with pos := a, wdata := v, scalar := x, wbase := z, wlenReq := e })
        (exec (Instr.read w g o .window) s) ∧
    exec (Instr.read w g o .scalar)
        { s with pos := a, wdata := v, wbase := z, wlenReq := e, winBase := y, winLen := f, mem := m
                 port := q } =
      mapNext (fun t => { t with pos := a, wdata := v, wbase := z, wlenReq := e, winBase := y
                                 winLen := f, mem := m, port := q })
        (exec (Instr.read w g o .scalar) s) ∧
    exec (Instr.write w g o .window)
        { s with pos := a, rdata := y, scalar := x, wbase := z, wlenReq := e } =
      mapNext (fun t => { t with pos := a, rdata := y, scalar := x, wbase := z, wlenReq := e })
        (exec (Instr.write w g o .window) s) ∧
    exec (Instr.write w g o .scalar)
        { s with pos := a, rdata := x, wbase := z, wlenReq := e, winBase := y, winLen := f, mem := m
                 port := q } =
      mapNext (fun t => { t with pos := a, rdata := x, wbase := z, wlenReq := e, winBase := y
                                 winLen := f, mem := m, port := q })
        (exec (Instr.write w g o .scalar) s) ∧
    exec (Instr.readBit o)
        { s with count := b, pos := a, wdata := v, scalar := x, wbase := z, wlenReq := e } =
      mapNext (fun t => { t with count := b, pos := a, wdata := v, scalar := x, wbase := z
                                 wlenReq := e })
        (exec (Instr.readBit o) s) ∧
    (v'.getLsbD 0 = s.wdata.getLsbD 0 →
      exec (Instr.writeBit o)
          { s with count := b, pos := a, wdata := v', rdata := y, scalar := x, wbase := z
                   wlenReq := e } =
        mapNext (fun t => { t with count := b, pos := a, wdata := v', rdata := y, scalar := x
                                   wbase := z, wlenReq := e })
          (exec (Instr.writeBit o) s)) ∧
    exec (Instr.cursorRead w g o)
        { s with offset := a, wdata := v, scalar := x, wbase := z, wlenReq := e } =
      mapNext (fun t => { t with offset := a, wdata := v, scalar := x, wbase := z, wlenReq := e })
        (exec (Instr.cursorRead w g o) s) ∧
    exec (Instr.cursorWrite w g o)
        { s with offset := a, rdata := y, scalar := x, wbase := z, wlenReq := e } =
      mapNext (fun t => { t with offset := a, rdata := y, scalar := x, wbase := z, wlenReq := e })
        (exec (Instr.cursorWrite w g o) s) ∧
    exec (Instr.cursorReadBit o)
        { s with offset := a, count := b, wdata := v, scalar := x, wbase := z, wlenReq := e } =
      mapNext (fun t => { t with offset := a, count := b, wdata := v, scalar := x, wbase := z
                                 wlenReq := e })
        (exec (Instr.cursorReadBit o) s) ∧
    (v'.getLsbD 0 = s.wdata.getLsbD 0 →
      exec (Instr.cursorWriteBit o)
          { s with offset := a, count := b, wdata := v', rdata := y, scalar := x, wbase := z
                   wlenReq := e } =
        mapNext (fun t => { t with offset := a, count := b, wdata := v', rdata := y, scalar := x
                                   wbase := z, wlenReq := e })
          (exec (Instr.cursorWriteBit o) s)) ∧
    exec (Instr.seek d)
        { s with count := b, wdata := v, rdata := y, scalar := x, wbase := z, wlenReq := e, mem := m
                 port := q } =
      mapNext (fun t => { t with count := b, wdata := v, rdata := y, scalar := x, wbase := z
                                 wlenReq := e, mem := m, port := q })
        (exec (Instr.seek d) s) ∧
    exec .bind
        { s with offset := a, count := b, wdata := v, rdata := y, scalar := x, mem := m, port := q } =
      mapNext (fun t => { t with offset := a, count := b, wdata := v, rdata := y, scalar := x, mem := m
                                 port := q })
        (exec .bind s)

/-- No access outside the window (R85): whatever its outcome, a command changes no byte but those at
window indices from 0 to WIN_LEN - 1, a multi-bit write none but those of its byte span, a single-bit
write none but its one byte, and every other command none at all (R54, R84). -/
def Obligations.WritesStayInTheirSpan : Prop :=
  (∀ (w : WidthClass) (g : Sign) (o : Order) (k : Source) (d : Origin) (s t : State),
    ∀ i ∈ [Instr.read w g o k, Instr.write w g o .scalar, Instr.readBit o, Instr.cursorRead w g o,
        Instr.cursorReadBit o, Instr.seek d, .bind],
      exec i s = .next t → t.mem = s.mem) ∧
  (∀ (i : Instr) (s t : State) (x : Nat), exec i s = .next t → t.mem.read x ≠ s.mem.read x →
    s.bound = true ∧ ∃ j < s.winLen.toNat, x = winAddr s j) ∧
  (∀ (w : WidthClass) (g : Sign) (o : Order) (s t : State) (x : Nat),
    t.mem.read x ≠ s.mem.read x →
      (exec (Instr.write w g o .window) s = .next t → x ∈ fieldAddrs s (sint s.offset)) ∧
      (exec (Instr.cursorWrite w g o) s = .next t → x ∈ fieldAddrs s (sint s.pos)) ∧
      (exec (Instr.writeBit o) s = .next t → x = winAddr s (byteIndex (sint s.offset))) ∧
      (exec (Instr.cursorWriteBit o) s = .next t → x = winAddr s (byteIndex (sint s.pos))))

/-! ## Registers as the host sees them -/

/-- What the host writes to OFFSET, COUNT, WDATA, SCALAR, POS, WBASE or WLEN_REQ, a half at a time for
the 64-bit ones, reads back, and no other register of the map reads differently after it (R33, R55). -/
def Obligations.WritableRegistersReadBack : Prop :=
  ∀ (s : State) (v : Word32),
    ∀ a ∈ [0x10, 0x14, 0x18, 0x1C, 0x28, 0x2C, 0x30, 0x38, 0x3C, 0x40], s.busy = false →
      ∃ t, hostStep (.regWrite .bits32 a v) s = .next t ∧
        (∃ u, hostStep (.regRead .bits32 a) t = .next u ∧ u.hostData = v) ∧
        (∀ b, b ≠ a → registerValue t b = registerValue s b) ∧
        t.mem = s.mem ∧ t.err = s.err ∧ t.sticky = s.sticky

/-- Which state the register map reaches (R33, R44 to R50, R55): a host write of OFFSET, COUNT, POS or
WLEN_REQ is the register the commands read, a write of a half of WDATA, SCALAR or WBASE replaces that
half and keeps the other, and a host read of RDATA, SCALAR, WIN_LEN, WIN_BASE and the rest returns the
register, by halves for the 64-bit ones. That a read lands in `hostData` is the model's own (log 12). -/
def Obligations.RegisterMapReachesTheState : Prop :=
  ∀ (s : State) (v : Word32), s.busy = false →
    (hostStep (.regWrite .bits32 0x10 v) s = .next { s with offset := v } ∧
      hostStep (.regWrite .bits32 0x14 v) s = .next { s with count := v } ∧
      hostStep (.regWrite .bits32 0x18 v) s =
        .next { s with wdata := s.wdata.extractLsb' 32 32 ++ v } ∧
      hostStep (.regWrite .bits32 0x1C v) s =
        .next { s with wdata := v ++ s.wdata.extractLsb' 0 32 } ∧
      hostStep (.regWrite .bits32 0x28 v) s =
        .next { s with scalar := s.scalar.extractLsb' 32 32 ++ v } ∧
      hostStep (.regWrite .bits32 0x2C v) s =
        .next { s with scalar := v ++ s.scalar.extractLsb' 0 32 } ∧
      hostStep (.regWrite .bits32 0x30 v) s = .next { s with pos := v } ∧
      hostStep (.regWrite .bits32 0x38 v) s =
        .next { s with wbase := s.wbase.extractLsb' 32 32 ++ v } ∧
      hostStep (.regWrite .bits32 0x3C v) s =
        .next { s with wbase := v ++ s.wbase.extractLsb' 0 32 } ∧
      hostStep (.regWrite .bits32 0x40 v) s = .next { s with wlenReq := v }) ∧
    ∀ r ∈ [(0x10, s.offset), (0x14, s.count), (0x18, s.wdata.extractLsb' 0 32),
        (0x1C, s.wdata.extractLsb' 32 32), (0x20, s.rdata.extractLsb' 0 32),
        (0x24, s.rdata.extractLsb' 32 32), (0x28, s.scalar.extractLsb' 0 32),
        (0x2C, s.scalar.extractLsb' 32 32), (0x30, s.pos), (0x38, s.wbase.extractLsb' 0 32),
        (0x3C, s.wbase.extractLsb' 32 32), (0x40, s.wlenReq), (0x44, s.winLen),
        (0x48, s.winBase.extractLsb' 0 32), (0x4C, s.winBase.extractLsb' 32 32)],
      hostStep (.regRead .bits32 r.1) s = .next { s with hostData := r.2 }

/-- The host access rules (R32): any access but an aligned 32-bit one is refused; an offset not in the
map reads 0 and ignores writes; a read-only register ignores writes; CMD reads 0. -/
def Obligations.HostAccessRules : Prop :=
  ∀ (s : State) (v : Word32), s.busy = false →
    (∀ width a, (width ≠ .bits32 ∨ a % 4 ≠ 0) →
      hostStep (.regWrite width a v) s = .refused .hostAccessForm ∧
        hostStep (.regRead width a) s = .refused .hostAccessForm) ∧
    (∀ a, a % 4 = 0 → 0x50 ≤ a →
      hostStep (.regRead .bits32 a) s = .next { s with hostData := 0 } ∧
        hostStep (.regWrite .bits32 a v) s = .next s) ∧
    (∀ a ∈ [0x00, 0x04, 0x20, 0x24, 0x34, 0x44, 0x48, 0x4C],
      hostStep (.regWrite .bits32 a v) s = .next s) ∧
    hostStep (.regRead .bits32 0x08) s = .next { s with hostData := 0 }

/-- STATUS (R37): ERR's code in bits 3:0, BOUND in 4, BUSY in 5, STICKY in 8, every other bit 0. -/
def Obligations.StatusWordHoldsItsFields : Prop :=
  ∀ s : State, ∃ u, hostStep (.regRead .bits32 0x0C) s = .next { s with hostData := u } ∧
    u.extractLsb' 0 4 = s.err.code ∧ u.getLsbD 4 = s.bound ∧ u.getLsbD 5 = s.busy ∧
    u.extractLsb' 6 2 = 0 ∧ u.getLsbD 8 = s.sticky ∧ u.extractLsb' 9 23 = 0

/-- ID and CAP (R35, R36): the constant; PTR64, ADDR_W and LEN_LOG2 in their places, every other bit
0. -/
def Obligations.IdAndCapReportTheParameters : Prop :=
  ∀ s : State,
    registerValue s 0x00 = 0x42495453 ∧
    (registerValue s 0x04).getLsbD 0 = s.params.ptr64 ∧
    (registerValue s 0x04).extractLsb' 1 7 = 0 ∧
    ((registerValue s 0x04).extractLsb' 8 7).toNat = s.params.addrW ∧
    (registerValue s 0x04).getLsbD 15 = false ∧
    ((registerValue s 0x04).extractLsb' 16 8).toNat = 28 ∧
    (registerValue s 0x04).extractLsb' 24 8 = 0

/-- LENGTH (R48): 8 * WIN_LEN when a window is bound and 0 when none is; at most 2^31 - 8, the window
being shorter than 2^28 bytes (R50). -/
def Obligations.LengthReportsTheBoundBits : Prop :=
  ∀ s : State, s.winLen.toNat < Config.maxLen →
    (registerValue s 0x34).toNat = (if s.bound then s.winLen.toNat * 8 else 0) ∧
      (registerValue s 0x34).toNat ≤ 2 ^ 31 - 8

/-- A host write of POS sets it unchecked, as SEEK.BEGIN with that value does, but writes no ERR and needs
no bound window (R353). -/
def Obligations.PosWriteIsAnUncheckedSeek : Prop :=
  ∀ (s : State) (v : Word32), s.busy = false →
    hostStep (.regWrite .bits32 0x30 v) s = .next { s with pos := v } ∧
      (s.bound = true →
        exec .seekBegin { s with offset := v } =
          .next { s with offset := v, pos := v, err := .ok })

/-- While BUSY = 1 every host access but a read of STATUS is refused (R430): the model has no step for
it (log 6). -/
def Obligations.HostAccessWhileBusyIsRefused : Prop :=
  ∀ (s : State) (width : AccessWidth) (a : Nat) (v : Word32) (b : Byte), s.busy = true →
    hostStep (.regWrite width a v) s = .refused .hostAccessWhileBusy ∧
      (a ≠ 0x0C → hostStep (.regRead width a) s = .refused .hostAccessWhileBusy) ∧
      hostStep (.memWrite a b) s = .refused .hostAccessWhileBusy ∧
      hostStep (.memRead a) s = .refused .hostAccessWhileBusy ∧
      Completes (hostStep (.regRead .bits32 0x0C) s)

/-- Host memory is plain memory (R25, R89): a byte the host writes reads back and is what the block's
port reads, every other byte is kept, and a read changes nothing but the data read; an address outside
the address space faults (log 15). -/
def Obligations.HostMemoryIsPlain : Prop :=
  ∀ (s : State) (a : Nat) (v : Byte), s.busy = false → s.mem.wf = true →
    (a < s.params.addrSpace →
      (∃ m, hostStep (.memWrite a v) s = .next { s with mem := m } ∧ m.wf = true ∧
        m.read a = v ∧ ∀ x, x ≠ a → m.read x = s.mem.read x) ∧
      hostStep (.memRead a) s = .next { s with hostData := (s.mem.read a).setWidth 32 }) ∧
    (s.params.addrSpace ≤ a →
      hostStep (.memWrite a v) s = .fault .noSuchAddress ∧
        hostStep (.memRead a) s = .fault .noSuchAddress)

/-! ## Reset -/

/-- Reset (R420): every piece of block state takes its reset value; window memory and the parameters
stay (R11, R422). -/
def Obligations.ResetZeroesTheBlock : Prop :=
  ∀ s : State, ∃ t, hostStep .reset s = .next t ∧
    t.bound = false ∧ t.winBase = 0 ∧ t.winLen = 0 ∧ t.pos = 0 ∧
    t.err = .ok ∧ t.sticky = false ∧ t.busy = false ∧
    t.offset = 0 ∧ t.count = 0 ∧ t.wdata = 0 ∧ t.rdata = 0 ∧ t.scalar = 0 ∧ t.wbase = 0 ∧
    t.wlenReq = 0 ∧ t.mem = s.mem ∧ t.params = s.params

/-- Reset during a command (R421): every register has its reset value; a byte outside the command's span
is kept, and a command with no span, or an illegal word, leaves window memory as it was. The bytes of
the span are free values (log 10). -/
def Obligations.AbandonedCommandKeepsOtherBytes : Prop :=
  ∀ (w : WidthClass) (g : Sign) (o : Order) (s : State) (i : Instr), s.busy = false →
    (∀ c, (∀ j, encode j ≠ c) → hostStep (.abandonedCommand c) s = .next { State.resetWith s.params with
      mem := s.mem, freeCount := s.freeCount, port := s.port, hostQueue := s.hostQueue
      hostData := s.hostData }) ∧
    ∃ t, hostStep (.abandonedCommand (encode i)) s = .next t ∧
      t = { State.resetWith s.params with
        mem := t.mem, freeCount := t.freeCount, port := s.port, hostQueue := s.hostQueue
        hostData := s.hostData } ∧
      (i ∈ [Instr.read w g o .window, Instr.write w g o .window] →
        ∀ x, x ∉ fieldAddrs s (sint s.offset) → t.mem.read x = s.mem.read x) ∧
      (i ∈ [Instr.cursorRead w g o, Instr.cursorWrite w g o] →
        ∀ x, x ∉ fieldAddrs s (sint s.pos) → t.mem.read x = s.mem.read x) ∧
      (i ∈ [Instr.readBit o, Instr.writeBit o] →
        ∀ x, x ≠ winAddr s (byteIndex (sint s.offset)) → t.mem.read x = s.mem.read x) ∧
      (i ∈ [Instr.cursorReadBit o, Instr.cursorWriteBit o] →
        ∀ x, x ≠ winAddr s (byteIndex (sint s.pos)) → t.mem.read x = s.mem.read x) ∧
      (i ∈ [Instr.read w g o .scalar, Instr.write w g o .scalar, .seekBegin, .seekCur, .seekEnd,
          .bind] → t.mem = s.mem)

/-- A race (R92(d), R431): a command raced on some bytes completes, with the race over; a byte that is
neither raced on nor in the command's own span is kept, and the parameters and the request registers
too. A legal raced read is the reference reading of a window whose every index with a raced address
reads a free value of its own; the raced bytes are left with free values (log 9). -/
def Obligations.RacedCommandKeepsOtherBytes : Prop :=
  ∀ (s : State) (c : Word32) (addrs : List Nat), s.busy = false →
    (∀ x ∈ addrs, x < s.params.addrSpace) →
      ∃ t, hostStep (.racedCommand c addrs) s = .next t ∧ t.raced = [] ∧
        (∀ x, x ∉ addrs → x ∉ commandSpan c s → t.mem.read x = s.mem.read x) ∧
        t.params = s.params ∧ t.offset = s.offset ∧ t.count = s.count ∧ t.wdata = s.wdata ∧
        t.wbase = s.wbase ∧ t.wlenReq = s.wlenReq ∧
        ∀ w g o, c = encode (Instr.read w g o .window) → FieldLegal s w (sint s.offset) →
          PortReads s (fieldAddrs s (sint s.offset)) →
            t.err = .ok ∧
              t.rdata = present g (widthBits s.params w) (sint s.count).toNat
                (BitVec.ofNat 64 (refRead
                  (fun i => if winAddr s i ∈ addrs then Config.freeByte (s.freeCount + i)
                    else s.mem.read (winAddr s i))
                  o (sint s.offset).toNat (sint s.count).toNat))

/-! ## The invariant -/

/-- From every state that meets the invariant, a step that answers a next state answers one that meets it,
with the same parameters (R11, R50). -/
def Obligations.EveryStepKeepsTheInvariant : Prop :=
  ∀ s t : State, s.Inv → step s = .next t → t.Inv ∧ t.params = s.params

/-- The device of any parameters meets the invariant right after reset. -/
def Obligations.ResetMeetsTheInvariant : Prop :=
  ∀ p : Params, (State.resetWith p).Inv ∧ State.reset.Inv

/-- A host that keeps its duties (R10, R32, R430) never stops the machine: from a state that meets the
invariant, the step completes, whatever command it issues and whatever the operands hold. -/
def Obligations.DutifulHostNeverStops : Prop :=
  ∀ (s : State) (act : HostAction) (rest : List HostAction), s.Inv →
    s.hostQueue = act :: rest → act.dutiful s.params = true → Completes (step s)

end
end

