-- ==== Sys2Proof/Laws/Bits.lean ====
section
/-! SUPPORT. What each helper of Machine/Bits.lean does to every bit. -/

namespace Sys2Proof.Machine

theorem getLsbD_ofBytes (N : Nat) (bs : List Byte) (i : Nat) :
    (ofBytes N bs).getLsbD i = (decide (i < N) && (bs.getD (i / 8) 0).getLsbD (i % 8)) := by
  induction bs generalizing i with
  | nil => simp [ofBytes]
  | cons b bs ih =>
    simp only [ofBytes, BitVec.getLsbD_or, BitVec.getLsbD_shiftLeft, BitVec.getLsbD_setWidth, ih]
    by_cases h8 : i < 8
    · have h0 : i / 8 = 0 := by omega
      have h1 : i % 8 = i := by omega
      simp [h8, h0, h1]
    · have h0 : i / 8 = (i - 8) / 8 + 1 := by omega
      have h1 : (i - 8) % 8 = i % 8 := by omega
      have h2 : b.getLsbD i = false := BitVec.getLsbD_of_ge _ _ (by omega)
      by_cases hN : i < N
      · have : i - 8 < N := by omega
        simp [h8, h0, h1, h2, hN, this]
      · simp [hN]

@[simp] theorem length_toBytes {N : Nat} (x : BitVec N) (k : Nat) : (toBytes x k).length = k := by
  induction k generalizing x with
  | zero => rfl
  | succ k ih => simp [toBytes, ih]

theorem getLsbD_toBytes {N : Nat} (x : BitVec N) (k j b : Nat) :
    ((toBytes x k).getD j 0).getLsbD b =
      (decide (j < k) && decide (b < 8) && x.getLsbD (8 * j + b)) := by
  induction k generalizing x j with
  | zero => simp [toBytes]
  | succ k ih =>
    cases j with
    | zero => simp [toBytes, BitVec.getLsbD_setWidth]
    | succ j =>
      simp only [toBytes, List.getD_cons_succ, ih, BitVec.getLsbD_ushiftRight]
      have : 8 + (8 * j + b) = 8 * (j + 1) + b := by omega
      simp [this]

/-- The bit of a staged word that stream position `p` names in MSB order (R22, R81): an involution. -/
def msbPlace (p : Nat) : Nat := 8 * (p / 8) + (7 - p % 8)

theorem msbPlace_msbPlace (p : Nat) : msbPlace (msbPlace p) = p := by
  unfold msbPlace; omega

theorem msbPlace_lt {p N : Nat} (hN : 8 ∣ N) (h : p < N) : msbPlace p < N := by
  unfold msbPlace; omega

theorem getLsbD_revBytes {N : Nat} (hN : 8 ∣ N) (x : BitVec N) (i : Nat) :
    (revBytes x).getLsbD i = (decide (i < N) && x.getLsbD (8 * (N / 8 - 1 - i / 8) + i % 8)) := by
  rw [revBytes, getLsbD_ofBytes]
  by_cases hi : i < N
  · have hk : i / 8 < N / 8 := by omega
    have hlen : i / 8 < (toBytes x (N / 8)).reverse.length := by simpa using hk
    have : (toBytes x (N / 8)).reverse.getD (i / 8) 0 =
        (toBytes x (N / 8)).getD (N / 8 - 1 - i / 8) 0 := by
      rw [List.getD_eq_getElem _ _ hlen, List.getElem_reverse,
        List.getD_eq_getElem _ _ (by simp; omega)]
      simp
    rw [this, getLsbD_toBytes]
    have h1 : N / 8 - 1 - i / 8 < N / 8 := by omega
    have h2 : i % 8 < 8 := by omega
    simp [hi, h1, h2]
  · simp [hi]

theorem getLsbD_reverse_byte (b : Byte) (i : Nat) :
    b.reverse.getLsbD i = (decide (i < 8) && b.getLsbD (7 - i)) := by
  rw [BitVec.getLsbD_reverse, BitVec.getMsbD]

theorem getLsbD_revByteBits {N : Nat} (hN : 8 ∣ N) (x : BitVec N) (i : Nat) :
    (revByteBits x).getLsbD i = (decide (i < N) && x.getLsbD (msbPlace i)) := by
  rw [revByteBits, getLsbD_ofBytes]
  by_cases hi : i < N
  · have hk : i / 8 < N / 8 := by omega
    have hlen : i / 8 < ((toBytes x (N / 8)).map BitVec.reverse).length := by simpa using hk
    have : ((toBytes x (N / 8)).map BitVec.reverse).getD (i / 8) 0 =
        ((toBytes x (N / 8)).getD (i / 8) 0).reverse := by
      rw [List.getD_eq_getElem _ _ hlen, List.getElem_map,
        List.getD_eq_getElem _ _ (by simpa using hk)]
    rw [this, getLsbD_reverse_byte, getLsbD_toBytes]
    have h2 : i % 8 < 8 := by omega
    have h3 : 7 - i % 8 < 8 := by omega
    simp [hi, hk, h2, h3, msbPlace]
  · simp [hi]

theorem getLsbD_trunc (v : Word64) (n i : Nat) :
    (trunc v n).getLsbD i = (decide (i < 64) && decide (i < n) && v.getLsbD i) := by
  simp [trunc, BitVec.getLsbD_setWidth, Bool.and_assoc]

end Sys2Proof.Machine
end

