-- ==== Sys2Proof/Laws/Exec.lean ====
section
/-! SUPPORT. `exec` on each kind of command, named by its parameters, and the case split of all
commands into those kinds. -/

namespace Sys2Proof.Machine

theorem exec_readWindow (w : WidthClass) (g : Sign) (o : Order) (s : State) :
    exec (Instr.read w g o .window) s = .next (readField w g o (sint s.offset) s) := by
  cases w <;> cases g <;> cases o <;> rfl

theorem exec_readScalar (w : WidthClass) (g : Sign) (o : Order) (s : State) :
    exec (Instr.read w g o .scalar) s = .next (readScalar w g o s) := by
  cases w <;> cases g <;> cases o <;> rfl

theorem exec_writeWindow (w : WidthClass) (g : Sign) (o : Order) (s : State) :
    exec (Instr.write w g o .window) s = .next (writeField w o (sint s.offset) s) := by
  cases w <;> cases g <;> cases o <;> rfl

theorem exec_writeScalar (w : WidthClass) (g : Sign) (o : Order) (s : State) :
    exec (Instr.write w g o .scalar) s = .next (writeScalar w o s) := by
  cases w <;> cases g <;> cases o <;> rfl

theorem exec_readBit (o : Order) (s : State) :
    exec (Instr.readBit o) s = .next (readBitAt o (sint s.offset) s) := by
  cases o <;> rfl

theorem exec_writeBit (o : Order) (s : State) :
    exec (Instr.writeBit o) s = .next (writeBitAt o (sint s.offset) s) := by
  cases o <;> rfl

theorem exec_cursorRead (w : WidthClass) (g : Sign) (o : Order) (s : State) :
    exec (Instr.cursorRead w g o) s = .next (cursorReadField w g o s) := by
  cases w <;> cases g <;> cases o <;> rfl

theorem exec_cursorWrite (w : WidthClass) (g : Sign) (o : Order) (s : State) :
    exec (Instr.cursorWrite w g o) s = .next (cursorWriteField w o s) := by
  cases w <;> cases g <;> cases o <;> rfl

theorem exec_cursorReadBit (o : Order) (s : State) :
    exec (Instr.cursorReadBit o) s = .next (cursorReadBitAt o s) := by
  cases o <;> rfl

theorem exec_cursorWriteBit (o : Order) (s : State) :
    exec (Instr.cursorWriteBit o) s = .next (cursorWriteBitAt o s) := by
  cases o <;> rfl

theorem exec_seek (g : Origin) (s : State) :
    exec (Instr.seek g) s = .next (seekTo g s) := by
  cases g <;> rfl

theorem exec_bind (s : State) : exec .bind s = .next (bindWindow s) := rfl

/-- Every command is of one of the kinds of R102. -/
theorem instr_kinds (i : Instr) :
    (∃ w g o k, i = Instr.read w g o k) ∨ (∃ w g o k, i = Instr.write w g o k) ∨
      (∃ o, i = Instr.readBit o) ∨ (∃ o, i = Instr.writeBit o) ∨
      (∃ w g o, i = Instr.cursorRead w g o) ∨ (∃ w g o, i = Instr.cursorWrite w g o) ∨
      (∃ o, i = Instr.cursorReadBit o) ∨ (∃ o, i = Instr.cursorWriteBit o) ∨
      (∃ g, i = Instr.seek g) ∨ i = .bind := by
  cases i with
  | rdU8Lsb => exact .inl ⟨.w8, .unsigned, .lsb, .window, rfl⟩
  | rdU8LsbS => exact .inl ⟨.w8, .unsigned, .lsb, .scalar, rfl⟩
  | rdU8Msb => exact .inl ⟨.w8, .unsigned, .msb, .window, rfl⟩
  | rdU8MsbS => exact .inl ⟨.w8, .unsigned, .msb, .scalar, rfl⟩
  | rdI8Lsb => exact .inl ⟨.w8, .signed, .lsb, .window, rfl⟩
  | rdI8LsbS => exact .inl ⟨.w8, .signed, .lsb, .scalar, rfl⟩
  | rdI8Msb => exact .inl ⟨.w8, .signed, .msb, .window, rfl⟩
  | rdI8MsbS => exact .inl ⟨.w8, .signed, .msb, .scalar, rfl⟩
  | rdU16Lsb => exact .inl ⟨.w16, .unsigned, .lsb, .window, rfl⟩
  | rdU16LsbS => exact .inl ⟨.w16, .unsigned, .lsb, .scalar, rfl⟩
  | rdU16Msb => exact .inl ⟨.w16, .unsigned, .msb, .window, rfl⟩
  | rdU16MsbS => exact .inl ⟨.w16, .unsigned, .msb, .scalar, rfl⟩
  | rdI16Lsb => exact .inl ⟨.w16, .signed, .lsb, .window, rfl⟩
  | rdI16LsbS => exact .inl ⟨.w16, .signed, .lsb, .scalar, rfl⟩
  | rdI16Msb => exact .inl ⟨.w16, .signed, .msb, .window, rfl⟩
  | rdI16MsbS => exact .inl ⟨.w16, .signed, .msb, .scalar, rfl⟩
  | rdU32Lsb => exact .inl ⟨.w32, .unsigned, .lsb, .window, rfl⟩
  | rdU32LsbS => exact .inl ⟨.w32, .unsigned, .lsb, .scalar, rfl⟩
  | rdU32Msb => exact .inl ⟨.w32, .unsigned, .msb, .window, rfl⟩
  | rdU32MsbS => exact .inl ⟨.w32, .unsigned, .msb, .scalar, rfl⟩
  | rdI32Lsb => exact .inl ⟨.w32, .signed, .lsb, .window, rfl⟩
  | rdI32LsbS => exact .inl ⟨.w32, .signed, .lsb, .scalar, rfl⟩
  | rdI32Msb => exact .inl ⟨.w32, .signed, .msb, .window, rfl⟩
  | rdI32MsbS => exact .inl ⟨.w32, .signed, .msb, .scalar, rfl⟩
  | rdU64Lsb => exact .inl ⟨.w64, .unsigned, .lsb, .window, rfl⟩
  | rdU64LsbS => exact .inl ⟨.w64, .unsigned, .lsb, .scalar, rfl⟩
  | rdU64Msb => exact .inl ⟨.w64, .unsigned, .msb, .window, rfl⟩
  | rdU64MsbS => exact .inl ⟨.w64, .unsigned, .msb, .scalar, rfl⟩
  | rdI64Lsb => exact .inl ⟨.w64, .signed, .lsb, .window, rfl⟩
  | rdI64LsbS => exact .inl ⟨.w64, .signed, .lsb, .scalar, rfl⟩
  | rdI64Msb => exact .inl ⟨.w64, .signed, .msb, .window, rfl⟩
  | rdI64MsbS => exact .inl ⟨.w64, .signed, .msb, .scalar, rfl⟩
  | rdUPLsb => exact .inl ⟨.ptr, .unsigned, .lsb, .window, rfl⟩
  | rdUPLsbS => exact .inl ⟨.ptr, .unsigned, .lsb, .scalar, rfl⟩
  | rdUPMsb => exact .inl ⟨.ptr, .unsigned, .msb, .window, rfl⟩
  | rdUPMsbS => exact .inl ⟨.ptr, .unsigned, .msb, .scalar, rfl⟩
  | rdIPLsb => exact .inl ⟨.ptr, .signed, .lsb, .window, rfl⟩
  | rdIPLsbS => exact .inl ⟨.ptr, .signed, .lsb, .scalar, rfl⟩
  | rdIPMsb => exact .inl ⟨.ptr, .signed, .msb, .window, rfl⟩
  | rdIPMsbS => exact .inl ⟨.ptr, .signed, .msb, .scalar, rfl⟩
  | wrU8Lsb => exact .inr <| .inl ⟨.w8, .unsigned, .lsb, .window, rfl⟩
  | wrU8LsbS => exact .inr <| .inl ⟨.w8, .unsigned, .lsb, .scalar, rfl⟩
  | wrU8Msb => exact .inr <| .inl ⟨.w8, .unsigned, .msb, .window, rfl⟩
  | wrU8MsbS => exact .inr <| .inl ⟨.w8, .unsigned, .msb, .scalar, rfl⟩
  | wrI8Lsb => exact .inr <| .inl ⟨.w8, .signed, .lsb, .window, rfl⟩
  | wrI8LsbS => exact .inr <| .inl ⟨.w8, .signed, .lsb, .scalar, rfl⟩
  | wrI8Msb => exact .inr <| .inl ⟨.w8, .signed, .msb, .window, rfl⟩
  | wrI8MsbS => exact .inr <| .inl ⟨.w8, .signed, .msb, .scalar, rfl⟩
  | wrU16Lsb => exact .inr <| .inl ⟨.w16, .unsigned, .lsb, .window, rfl⟩
  | wrU16LsbS => exact .inr <| .inl ⟨.w16, .unsigned, .lsb, .scalar, rfl⟩
  | wrU16Msb => exact .inr <| .inl ⟨.w16, .unsigned, .msb, .window, rfl⟩
  | wrU16MsbS => exact .inr <| .inl ⟨.w16, .unsigned, .msb, .scalar, rfl⟩
  | wrI16Lsb => exact .inr <| .inl ⟨.w16, .signed, .lsb, .window, rfl⟩
  | wrI16LsbS => exact .inr <| .inl ⟨.w16, .signed, .lsb, .scalar, rfl⟩
  | wrI16Msb => exact .inr <| .inl ⟨.w16, .signed, .msb, .window, rfl⟩
  | wrI16MsbS => exact .inr <| .inl ⟨.w16, .signed, .msb, .scalar, rfl⟩
  | wrU32Lsb => exact .inr <| .inl ⟨.w32, .unsigned, .lsb, .window, rfl⟩
  | wrU32LsbS => exact .inr <| .inl ⟨.w32, .unsigned, .lsb, .scalar, rfl⟩
  | wrU32Msb => exact .inr <| .inl ⟨.w32, .unsigned, .msb, .window, rfl⟩
  | wrU32MsbS => exact .inr <| .inl ⟨.w32, .unsigned, .msb, .scalar, rfl⟩
  | wrI32Lsb => exact .inr <| .inl ⟨.w32, .signed, .lsb, .window, rfl⟩
  | wrI32LsbS => exact .inr <| .inl ⟨.w32, .signed, .lsb, .scalar, rfl⟩
  | wrI32Msb => exact .inr <| .inl ⟨.w32, .signed, .msb, .window, rfl⟩
  | wrI32MsbS => exact .inr <| .inl ⟨.w32, .signed, .msb, .scalar, rfl⟩
  | wrU64Lsb => exact .inr <| .inl ⟨.w64, .unsigned, .lsb, .window, rfl⟩
  | wrU64LsbS => exact .inr <| .inl ⟨.w64, .unsigned, .lsb, .scalar, rfl⟩
  | wrU64Msb => exact .inr <| .inl ⟨.w64, .unsigned, .msb, .window, rfl⟩
  | wrU64MsbS => exact .inr <| .inl ⟨.w64, .unsigned, .msb, .scalar, rfl⟩
  | wrI64Lsb => exact .inr <| .inl ⟨.w64, .signed, .lsb, .window, rfl⟩
  | wrI64LsbS => exact .inr <| .inl ⟨.w64, .signed, .lsb, .scalar, rfl⟩
  | wrI64Msb => exact .inr <| .inl ⟨.w64, .signed, .msb, .window, rfl⟩
  | wrI64MsbS => exact .inr <| .inl ⟨.w64, .signed, .msb, .scalar, rfl⟩
  | wrUPLsb => exact .inr <| .inl ⟨.ptr, .unsigned, .lsb, .window, rfl⟩
  | wrUPLsbS => exact .inr <| .inl ⟨.ptr, .unsigned, .lsb, .scalar, rfl⟩
  | wrUPMsb => exact .inr <| .inl ⟨.ptr, .unsigned, .msb, .window, rfl⟩
  | wrUPMsbS => exact .inr <| .inl ⟨.ptr, .unsigned, .msb, .scalar, rfl⟩
  | wrIPLsb => exact .inr <| .inl ⟨.ptr, .signed, .lsb, .window, rfl⟩
  | wrIPLsbS => exact .inr <| .inl ⟨.ptr, .signed, .lsb, .scalar, rfl⟩
  | wrIPMsb => exact .inr <| .inl ⟨.ptr, .signed, .msb, .window, rfl⟩
  | wrIPMsbS => exact .inr <| .inl ⟨.ptr, .signed, .msb, .scalar, rfl⟩
  | rdbitLsb => exact .inr <| .inr <| .inl ⟨.lsb, rfl⟩
  | rdbitMsb => exact .inr <| .inr <| .inl ⟨.msb, rfl⟩
  | wrbitLsb => exact .inr <| .inr <| .inr <| .inl ⟨.lsb, rfl⟩
  | wrbitMsb => exact .inr <| .inr <| .inr <| .inl ⟨.msb, rfl⟩
  | crdU8Lsb => exact .inr <| .inr <| .inr <| .inr <| .inl ⟨.w8, .unsigned, .lsb, rfl⟩
  | crdU8Msb => exact .inr <| .inr <| .inr <| .inr <| .inl ⟨.w8, .unsigned, .msb, rfl⟩
  | crdI8Lsb => exact .inr <| .inr <| .inr <| .inr <| .inl ⟨.w8, .signed, .lsb, rfl⟩
  | crdI8Msb => exact .inr <| .inr <| .inr <| .inr <| .inl ⟨.w8, .signed, .msb, rfl⟩
  | crdU16Lsb => exact .inr <| .inr <| .inr <| .inr <| .inl ⟨.w16, .unsigned, .lsb, rfl⟩
  | crdU16Msb => exact .inr <| .inr <| .inr <| .inr <| .inl ⟨.w16, .unsigned, .msb, rfl⟩
  | crdI16Lsb => exact .inr <| .inr <| .inr <| .inr <| .inl ⟨.w16, .signed, .lsb, rfl⟩
  | crdI16Msb => exact .inr <| .inr <| .inr <| .inr <| .inl ⟨.w16, .signed, .msb, rfl⟩
  | crdU32Lsb => exact .inr <| .inr <| .inr <| .inr <| .inl ⟨.w32, .unsigned, .lsb, rfl⟩
  | crdU32Msb => exact .inr <| .inr <| .inr <| .inr <| .inl ⟨.w32, .unsigned, .msb, rfl⟩
  | crdI32Lsb => exact .inr <| .inr <| .inr <| .inr <| .inl ⟨.w32, .signed, .lsb, rfl⟩
  | crdI32Msb => exact .inr <| .inr <| .inr <| .inr <| .inl ⟨.w32, .signed, .msb, rfl⟩
  | crdU64Lsb => exact .inr <| .inr <| .inr <| .inr <| .inl ⟨.w64, .unsigned, .lsb, rfl⟩
  | crdU64Msb => exact .inr <| .inr <| .inr <| .inr <| .inl ⟨.w64, .unsigned, .msb, rfl⟩
  | crdI64Lsb => exact .inr <| .inr <| .inr <| .inr <| .inl ⟨.w64, .signed, .lsb, rfl⟩
  | crdI64Msb => exact .inr <| .inr <| .inr <| .inr <| .inl ⟨.w64, .signed, .msb, rfl⟩
  | crdUPLsb => exact .inr <| .inr <| .inr <| .inr <| .inl ⟨.ptr, .unsigned, .lsb, rfl⟩
  | crdUPMsb => exact .inr <| .inr <| .inr <| .inr <| .inl ⟨.ptr, .unsigned, .msb, rfl⟩
  | crdIPLsb => exact .inr <| .inr <| .inr <| .inr <| .inl ⟨.ptr, .signed, .lsb, rfl⟩
  | crdIPMsb => exact .inr <| .inr <| .inr <| .inr <| .inl ⟨.ptr, .signed, .msb, rfl⟩
  | cwrU8Lsb => exact .inr <| .inr <| .inr <| .inr <| .inr <| .inl ⟨.w8, .unsigned, .lsb, rfl⟩
  | cwrU8Msb => exact .inr <| .inr <| .inr <| .inr <| .inr <| .inl ⟨.w8, .unsigned, .msb, rfl⟩
  | cwrI8Lsb => exact .inr <| .inr <| .inr <| .inr <| .inr <| .inl ⟨.w8, .signed, .lsb, rfl⟩
  | cwrI8Msb => exact .inr <| .inr <| .inr <| .inr <| .inr <| .inl ⟨.w8, .signed, .msb, rfl⟩
  | cwrU16Lsb => exact .inr <| .inr <| .inr <| .inr <| .inr <| .inl ⟨.w16, .unsigned, .lsb, rfl⟩
  | cwrU16Msb => exact .inr <| .inr <| .inr <| .inr <| .inr <| .inl ⟨.w16, .unsigned, .msb, rfl⟩
  | cwrI16Lsb => exact .inr <| .inr <| .inr <| .inr <| .inr <| .inl ⟨.w16, .signed, .lsb, rfl⟩
  | cwrI16Msb => exact .inr <| .inr <| .inr <| .inr <| .inr <| .inl ⟨.w16, .signed, .msb, rfl⟩
  | cwrU32Lsb => exact .inr <| .inr <| .inr <| .inr <| .inr <| .inl ⟨.w32, .unsigned, .lsb, rfl⟩
  | cwrU32Msb => exact .inr <| .inr <| .inr <| .inr <| .inr <| .inl ⟨.w32, .unsigned, .msb, rfl⟩
  | cwrI32Lsb => exact .inr <| .inr <| .inr <| .inr <| .inr <| .inl ⟨.w32, .signed, .lsb, rfl⟩
  | cwrI32Msb => exact .inr <| .inr <| .inr <| .inr <| .inr <| .inl ⟨.w32, .signed, .msb, rfl⟩
  | cwrU64Lsb => exact .inr <| .inr <| .inr <| .inr <| .inr <| .inl ⟨.w64, .unsigned, .lsb, rfl⟩
  | cwrU64Msb => exact .inr <| .inr <| .inr <| .inr <| .inr <| .inl ⟨.w64, .unsigned, .msb, rfl⟩
  | cwrI64Lsb => exact .inr <| .inr <| .inr <| .inr <| .inr <| .inl ⟨.w64, .signed, .lsb, rfl⟩
  | cwrI64Msb => exact .inr <| .inr <| .inr <| .inr <| .inr <| .inl ⟨.w64, .signed, .msb, rfl⟩
  | cwrUPLsb => exact .inr <| .inr <| .inr <| .inr <| .inr <| .inl ⟨.ptr, .unsigned, .lsb, rfl⟩
  | cwrUPMsb => exact .inr <| .inr <| .inr <| .inr <| .inr <| .inl ⟨.ptr, .unsigned, .msb, rfl⟩
  | cwrIPLsb => exact .inr <| .inr <| .inr <| .inr <| .inr <| .inl ⟨.ptr, .signed, .lsb, rfl⟩
  | cwrIPMsb => exact .inr <| .inr <| .inr <| .inr <| .inr <| .inl ⟨.ptr, .signed, .msb, rfl⟩
  | crdbitLsb => exact .inr <| .inr <| .inr <| .inr <| .inr <| .inr <| .inl ⟨.lsb, rfl⟩
  | crdbitMsb => exact .inr <| .inr <| .inr <| .inr <| .inr <| .inr <| .inl ⟨.msb, rfl⟩
  | cwrbitLsb => exact .inr <| .inr <| .inr <| .inr <| .inr <| .inr <| .inr <| .inl ⟨.lsb, rfl⟩
  | cwrbitMsb => exact .inr <| .inr <| .inr <| .inr <| .inr <| .inr <| .inr <| .inl ⟨.msb, rfl⟩
  | seekBegin => exact .inr <| .inr <| .inr <| .inr <| .inr <| .inr <| .inr <| .inr <| .inl ⟨.begin, rfl⟩
  | seekCur => exact .inr <| .inr <| .inr <| .inr <| .inr <| .inr <| .inr <| .inr <| .inl ⟨.current, rfl⟩
  | seekEnd => exact .inr <| .inr <| .inr <| .inr <| .inr <| .inr <| .inr <| .inr <| .inl ⟨.fromEnd, rfl⟩
  | bind => exact .inr <| .inr <| .inr <| .inr <| .inr <| .inr <| .inr <| .inr <| .inr rfl

end Sys2Proof.Machine
end

