-- ==== Sys2Proof/Laws/Masking.lean ====
section
/-! SUPPORT. What the Masking Core and its stages do to every bit (40_masking_core.md): extraction,
insertion, the staged read and write of a byte span, and the reference reading. -/

namespace Sys2Proof.Machine

/-- The bit of a staged word that stream position `p` names (R22). -/
def streamPlace (ord : Order) (p : Nat) : Nat :=
  match ord with
  | .lsb => p
  | .msb => msbPlace p

theorem streamPlace_streamPlace (ord : Order) (p : Nat) :
    streamPlace ord (streamPlace ord p) = p := by
  cases ord with
  | lsb => rfl
  | msb => exact msbPlace_msbPlace p

theorem streamPlace_lt (ord : Order) {p N : Nat} (hN : 8 ∣ N) (h : p < N) :
    streamPlace ord p < N := by
  cases ord with
  | lsb => exact h
  | msb => exact msbPlace_lt hN h

theorem streamPlace_div (ord : Order) (p : Nat) : streamPlace ord p / 8 = p / 8 := by
  cases ord with
  | lsb => rfl
  | msb => simp only [streamPlace, msbPlace]; omega

theorem fieldWeight_lt {ord : Order} {n i : Nat} (h : i < n) : fieldWeight ord n i < n := by
  cases ord <;> (simp only [fieldWeight]; omega)

theorem fieldWeight_fieldWeight {ord : Order} {n i : Nat} (h : i < n) :
    fieldWeight ord n (fieldWeight ord n i) = i := by
  cases ord with
  | lsb => rfl
  | msb => simp only [fieldWeight]; omega

/-- A stream bit is a bit of the byte at its index (R22). -/
theorem streamBit_eq (byte : Nat → Byte) (ord : Order) (p : Nat) :
    streamBit byte ord p = (byte (p / 8)).getLsbD (streamPlace ord p % 8) := by
  cases ord with
  | lsb => rfl
  | msb =>
    have : msbPlace p % 8 = 7 - p % 8 := by unfold msbPlace; omega
    simp [streamBit, streamPlace, this]

/-- The stream bits of staged bytes are the bits of the staged word (R80, R140). -/
theorem getLsbD_ofBytes_streamPlace (N : Nat) (bs : List Byte) (ord : Order) (p : Nat) :
    (ofBytes N bs).getLsbD (streamPlace ord p) =
      (decide (streamPlace ord p < N) && streamBit (fun j => bs.getD j 0) ord p) := by
  rw [getLsbD_ofBytes, streamBit_eq, streamPlace_div]

/-- The stream bits of a word's bytes are the word's bits. -/
theorem streamBit_toBytes {N : Nat} (x : BitVec N) (k : Nat) (ord : Order) (p : Nat) :
    streamBit (fun j => (toBytes x k).getD j 0) ord p =
      (decide (p / 8 < k) && x.getLsbD (streamPlace ord p)) := by
  rw [streamBit_eq, getLsbD_toBytes]
  have h1 : streamPlace ord p % 8 < 8 := by omega
  have h2 : 8 * (p / 8) + streamPlace ord p % 8 = streamPlace ord p := by
    have := streamPlace_div ord p; omega
  simp only [h1, h2, decide_true, Bool.and_true]

/-! ## Extraction -/

/-- R134: the result is `S[o+n-1 : o]`, zero-extended. -/
theorem getLsbD_extractLsb {SW : Nat} (S : BitVec SW) {o n : Nat} (h : o + n ≤ SW) (i : Nat) :
    (extractLsb S o n).getLsbD i = (decide (i < n) && S.getLsbD (o + i)) := by
  unfold extractLsb
  split
  · subst n; simp
  · rw [BitVec.getLsbD_ushiftRight, BitVec.getLsbD_shiftLeft]
    by_cases hi : i < n
    · have e : SW - n + i - (SW - n - o) = o + i := by omega
      simp [hi, e, show SW - n + i < SW by omega, show ¬ (SW - n + i < SW - n - o) by omega]
    · simp [hi, show ¬ (SW - n + i < SW) by omega]

/-- R135: bit n-1-i of the result is stream bit o+i in MSB numbering. -/
theorem getLsbD_extractMsb {SW : Nat} (hSW : 8 ∣ SW) (S : BitVec SW) {o n : Nat}
    (h : o + n ≤ SW) (i : Nat) :
    (extractMsb S o n).getLsbD i = (decide (i < n) && S.getLsbD (msbPlace (o + (n - 1 - i)))) := by
  unfold extractMsb
  split
  · subst n; simp
  · rw [BitVec.getLsbD_ushiftRight, BitVec.getLsbD_shiftLeft, getLsbD_revBytes hSW]
    by_cases hi : i < n
    · have e : 8 * (SW / 8 - 1 - (SW - n + i - o) / 8) + (SW - n + i - o) % 8 =
          msbPlace (o + (n - 1 - i)) := by unfold msbPlace; omega
      simp [hi, e, show SW - n + i < SW by omega, show ¬ (SW - n + i < o) by omega,
        show SW - n + i - o < SW by omega]
    · simp [hi, show ¬ (SW - n + i < SW) by omega]

/-- R141, R154: bit `i` of an extracted field. -/
theorem getLsbD_maskRead (ord : Order) {SW : Nat} (hSW : 8 ∣ SW) (S : BitVec SW) {o n : Nat}
    (h : o + n ≤ SW) (i : Nat) :
    (maskRead ord S o n).getLsbD i =
      (decide (i < n) && S.getLsbD (streamPlace ord (o + fieldWeight ord n i))) := by
  cases ord with
  | lsb => exact getLsbD_extractLsb S h i
  | msb => exact getLsbD_extractMsb hSW S h i

/-! ## Insertion -/

theorem getLsbD_fieldMask {SW n : Nat} (h : n ≤ SW) (i : Nat) :
    (fieldMask SW n).getLsbD i = decide (i < n) := by
  simp only [fieldMask, ones, BitVec.getLsbD_ushiftRight, BitVec.getLsbD_allOnes]
  by_cases hi : i < n
  · simp [hi]; omega
  · simp [hi]; omega

/-- R136: `S` except bits `[o+n-1 : o]`, which are `trunc_n(v)`. -/
theorem getLsbD_insertLsb {SW : Nat} (S v : BitVec SW) {o n : Nat} (h : o + n ≤ SW) (j : Nat) :
    (insertLsb S o v n).getLsbD j =
      if o ≤ j ∧ j < o + n then v.getLsbD (j - o) else S.getLsbD j := by
  unfold insertLsb
  split
  · subst n
    simp
  · simp only [BitVec.getLsbD_or, BitVec.getLsbD_and, BitVec.getLsbD_not, BitVec.getLsbD_shiftLeft,
      getLsbD_fieldMask (show n ≤ SW by omega)]
    by_cases hj : j < SW
    · by_cases h1 : o ≤ j <;> by_cases h2 : j < o + n
      · simp [hj, h1, h2, show ¬ j < o by omega, show j - o < n by omega]
      · simp [hj, h1, h2, show ¬ j < o by omega, show ¬ j - o < n by omega]
      · simp [hj, h1, show j < o by omega]
      · omega
    · have hS : S.getLsbD j = false := BitVec.getLsbD_of_ge _ _ (by omega)
      have : ¬ (o ≤ j ∧ j < o + n) := by omega
      simp [hj, hS, this]

/-- R137: `S` except stream bits `o .. o+n-1` in MSB numbering, which receive `trunc_n(v)`, its most
significant bit at stream bit `o`. -/
theorem getLsbD_insertMsb {SW : Nat} (hSW : 8 ∣ SW) (S v : BitVec SW) {o n : Nat}
    (h : o + n ≤ SW) {j : Nat} (hj : j < SW) :
    (insertMsb S o v n).getLsbD j =
      if o ≤ msbPlace j ∧ msbPlace j < o + n then v.getLsbD (n - 1 - (msbPlace j - o))
      else S.getLsbD j := by
  unfold insertMsb
  split
  · subst n
    simp
  · have hr : 8 * (SW / 8 - 1 - j / 8) + j % 8 = SW - 1 - msbPlace j := by unfold msbPlace; omega
    have hp : msbPlace j < SW := msbPlace_lt hSW hj
    simp only [BitVec.getLsbD_or, BitVec.getLsbD_and, BitVec.getLsbD_not, getLsbD_revBytes hSW,
      BitVec.getLsbD_shiftLeft, getLsbD_fieldMask (show n ≤ SW by omega), hr]
    generalize msbPlace j = p at *
    by_cases h1 : o ≤ p <;> by_cases h2 : p < o + n
    · have e : SW - 1 - p - (SW - n - o) = n - 1 - (p - o) := by omega
      simp [hj, h1, h2, e, show SW - 1 - p < SW by omega, show ¬ (SW - 1 - p < SW - n - o) by omega,
        show n - 1 - (p - o) < n by omega]
    · simp [hj, h1, h2, show SW - 1 - p < SW by omega, show SW - 1 - p < SW - n - o by omega]
    · simp [hj, h1, show SW - 1 - p < SW by omega, show ¬ (SW - 1 - p < SW - n - o) by omega,
        show ¬ (SW - 1 - p - (SW - n - o) < n) by omega]
    · omega

/-- R141, R154: bit `j` of a merged word. -/
theorem getLsbD_maskWrite (ord : Order) {SW : Nat} (hSW : 8 ∣ SW) (S v : BitVec SW) {o n : Nat}
    (h : o + n ≤ SW) {p : Nat} (hp : p < SW) :
    (maskWrite ord S o v n).getLsbD (streamPlace ord p) =
      if o ≤ p ∧ p < o + n then v.getLsbD (fieldWeight ord n (p - o))
      else S.getLsbD (streamPlace ord p) := by
  cases ord with
  | lsb => exact getLsbD_insertLsb S v h p
  | msb =>
    simp only [maskWrite, streamPlace, fieldWeight]
    rw [getLsbD_insertMsb hSW S v h (msbPlace_lt hSW hp), msbPlace_msbPlace]

/-! ## The staged read and write of a byte span -/

/-- The widths of the five width classes (R104). -/
def IsWidth (W : Nat) : Prop := W = 8 ∨ W = 16 ∨ W = 32 ∨ W = 64

theorem IsWidth.dvd {W : Nat} (h : IsWidth W) : 8 ∣ W := by
  rcases h with rfl | rfl | rfl | rfl <;> decide

theorem IsWidth.le {W : Nat} (h : IsWidth W) : W ≤ 64 := by
  rcases h with rfl | rfl | rfl | rfl <;> decide

theorem IsWidth.split {W : Nat} (h : IsWidth W) (h2 : ¬ 2 * W ≤ 64) : W = 64 := by
  rcases h with rfl | rfl | rfl | rfl <;> omega

theorem streamBit_take {bs : List Byte} {ord : Order} {p k : Nat} (h : p < 8 * k) :
    streamBit (fun j => (bs.take k).getD j 0) ord p = streamBit (fun j => bs.getD j 0) ord p := by
  have : p / 8 < k := by omega
  simp [streamBit_eq, List.getD_eq_getElem?_getD, List.getElem?_take, this]

theorem streamBit_drop (bs : List Byte) (ord : Order) (p k : Nat) :
    streamBit (fun j => (bs.drop k).getD j 0) ord p =
      streamBit (fun j => bs.getD j 0) ord (8 * k + p) := by
  have h1 : (8 * k + p) / 8 = k + p / 8 := by omega
  have h2 : streamPlace ord (8 * k + p) % 8 = streamPlace ord p % 8 := by
    cases ord <;> simp only [streamPlace, msbPlace] <;> omega
  simp [streamBit_eq, List.getD_eq_getElem?_getD, List.getElem?_drop, h1, h2]

/-- R142 to R144: the two-word split reads the field's stream bits. -/
theorem getLsbD_splitRead (ord : Order) (w0 w1 : Word64) {o n : Nat} (ho : o ≤ 7) (hn : n ≤ 64)
    (hs : 64 < o + n) (i : Nat) :
    (splitRead ord w0 w1 o n).getLsbD i =
      (decide (i < n) &&
        if o + fieldWeight ord n i < 64 then w0.getLsbD (streamPlace ord (o + fieldWeight ord n i))
        else w1.getLsbD (streamPlace ord (o + fieldWeight ord n i - 64))) := by
  have h8 : 8 ∣ 64 := by decide
  cases ord with
  | lsb =>
    simp only [splitRead, fieldWeight, streamPlace, BitVec.getLsbD_or, BitVec.getLsbD_shiftLeft,
      getLsbD_extractLsb w0 (show o + (64 - o) ≤ 64 by omega),
      getLsbD_extractLsb w1 (show 0 + (n - (64 - o)) ≤ 64 by omega)]
    by_cases hi : i < n <;> by_cases h1 : o + i < 64
    · simp [hi, h1, show i < 64 - o by omega]
    · have e : 0 + (i - (64 - o)) = o + i - 64 := by omega
      simp [hi, h1, e, show i < 64 by omega, show ¬ i < 64 - o by omega,
        show i - (64 - o) < n - (64 - o) by omega]
    · omega
    · simp [hi, show ¬ i < 64 - o by omega, show ¬ i - (64 - o) < n - (64 - o) by omega]
  | msb =>
    simp only [splitRead, fieldWeight, streamPlace, BitVec.getLsbD_or, BitVec.getLsbD_shiftLeft,
      getLsbD_extractMsb h8 w0 (show o + (64 - o) ≤ 64 by omega),
      getLsbD_extractMsb h8 w1 (show 0 + (n - (64 - o)) ≤ 64 by omega)]
    by_cases hi : i < n <;> by_cases h1 : o + (n - 1 - i) < 64
    · have e : o + (64 - o - 1 - (i - (n - (64 - o)))) = o + (n - 1 - i) := by omega
      simp [hi, h1, e, show i < 64 by omega, show ¬ i < n - (64 - o) by omega,
        show i - (n - (64 - o)) < 64 - o by omega]
    · have e : 0 + (n - (64 - o) - 1 - i) = o + (n - 1 - i) - 64 := by omega
      simp [hi, h1, e, show i < 64 by omega, show i < n - (64 - o) by omega]
    · simp [hi, show ¬ i < n - (64 - o) by omega, show ¬ i - (n - (64 - o)) < 64 - o by omega]
    · omega

/-- R148, R150: a field read of staged bytes is the field's stream bits, whatever the staged width. -/
theorem getLsbD_fieldRead (ord : Order) {W o n : Nat} (hW : IsWidth W) (ho : o ≤ 7) (hn : n ≤ W)
    (bytes : List Byte) (i : Nat) :
    (fieldRead ord W o n bytes).getLsbD i =
      (decide (i < n) && streamBit (fun j => bytes.getD j 0) ord (o + fieldWeight ord n i)) := by
  have h8 := hW.dvd
  have h64 := hW.le
  unfold fieldRead
  split
  · subst n; simp
  split
  · rename_i h0 h
    rw [BitVec.getLsbD_setWidth, getLsbD_maskRead ord h8 _ h]
    by_cases hi : i < n
    · have hw := fieldWeight_lt (ord := ord) hi
      rw [getLsbD_ofBytes_streamPlace]
      have := streamPlace_lt ord h8 (show o + fieldWeight ord n i < W by omega)
      simp [hi, this, show i < 64 by omega]
    · simp [hi]
  split
  · rename_i h0 h h2
    rw [BitVec.getLsbD_setWidth,
      getLsbD_maskRead ord (show 8 ∣ 2 * W by omega) _ (show o + n ≤ 2 * W by
        rcases hW with rfl | rfl | rfl | rfl <;> omega)]
    by_cases hi : i < n
    · have hw := fieldWeight_lt (ord := ord) hi
      rw [getLsbD_ofBytes_streamPlace]
      have := streamPlace_lt ord (show 8 ∣ 2 * W by omega)
        (show o + fieldWeight ord n i < 2 * W by rcases hW with rfl | rfl | rfl | rfl <;> omega)
      simp [hi, this, show i < 64 by omega]
    · simp [hi]
  · rename_i h0 h h2
    have hW64 := hW.split h2
    rw [getLsbD_splitRead ord _ _ ho (by omega) (by omega)]
    by_cases hi : i < n
    · have hw := fieldWeight_lt (ord := ord) hi
      simp only [hi, decide_true, Bool.true_and]
      split
      · rename_i h1
        rw [getLsbD_ofBytes_streamPlace, streamBit_take (by omega)]
        simp [streamPlace_lt ord (show 8 ∣ 64 by decide) h1]
      · rename_i h1
        rw [getLsbD_ofBytes_streamPlace, streamBit_drop]
        have := streamPlace_lt ord (show 8 ∣ 64 by decide)
          (show o + fieldWeight ord n i - 64 < 64 by omega)
        simp only [this, decide_true, Bool.true_and]
        congr 1
        omega
    · simp [hi]

/-- R147: as many bytes are merged as were staged. -/
theorem length_fieldWrite (ord : Order) {W o n : Nat} (hW : IsWidth W) (v : Word64)
    (bytes : List Byte) (h : o + n ≤ 8 * bytes.length) :
    (fieldWrite ord W o v n bytes).length = bytes.length := by
  unfold fieldWrite
  split
  · rfl
  split
  · simp
  split
  · simp
  · rename_i h1 h2
    have := hW.split h2
    simp; omega

theorem streamBit_append (l₁ l₂ : List Byte) (ord : Order) (p : Nat) :
    streamBit (fun j => (l₁ ++ l₂).getD j 0) ord p =
      if p < 8 * l₁.length then streamBit (fun j => l₁.getD j 0) ord p
      else streamBit (fun j => l₂.getD j 0) ord (p - 8 * l₁.length) := by
  split
  · rename_i h
    have : p / 8 < l₁.length := by omega
    simp [streamBit_eq, List.getD_eq_getElem?_getD, List.getElem?_append, this]
  · rename_i h
    have h0 : ¬ p / 8 < l₁.length := by omega
    have h1 : (p - 8 * l₁.length) / 8 = p / 8 - l₁.length := by omega
    have h2 : streamPlace ord (p - 8 * l₁.length) % 8 = streamPlace ord p % 8 := by
      cases ord <;> simp only [streamPlace, msbPlace] <;> omega
    simp [streamBit_eq, List.getD_eq_getElem?_getD, List.getElem?_append, h0, h1, h2]

/-- The part of the field value that goes into the first word of the split (R145, R146). -/
def splitFirst (ord : Order) (v : Word64) (o n : Nat) : Word64 :=
  match ord with
  | .lsb => v
  | .msb => v >>> (n - (64 - o))

/-- The part that goes into the second word. -/
def splitSecond (ord : Order) (v : Word64) (o n : Nat) : Word64 :=
  match ord with
  | .lsb => v >>> (64 - o)
  | .msb => v &&& (ones (n - (64 - o))).setWidth 64

theorem splitWrite_eq (ord : Order) (w0 w1 v : Word64) (o n : Nat) :
    splitWrite ord w0 w1 o v n =
      (maskWrite ord w0 o (splitFirst ord v o n) (64 - o),
        maskWrite ord w1 0 (splitSecond ord v o n) (n - (64 - o))) := by
  cases ord <;> rfl

/-- R145, R146: the two-word split writes the field's stream bits, in both words. -/
theorem getLsbD_splitWrite (ord : Order) (w0 w1 v : Word64) {o n : Nat} (ho : o ≤ 7) (hn : n ≤ 64)
    (hs : 64 < o + n) {p : Nat} (hp : p < 64) :
    (splitWrite ord w0 w1 o v n).1.getLsbD (streamPlace ord p) =
        (if o ≤ p then v.getLsbD (fieldWeight ord n (p - o))
        else w0.getLsbD (streamPlace ord p)) ∧
      (splitWrite ord w0 w1 o v n).2.getLsbD (streamPlace ord p) =
        (if p + 64 < o + n then v.getLsbD (fieldWeight ord n (p + 64 - o))
        else w1.getLsbD (streamPlace ord p)) := by
  have h8 : 8 ∣ 64 := by decide
  rw [splitWrite_eq]
  constructor
  · dsimp only
    rw [getLsbD_maskWrite ord h8 w0 _ (show o + (64 - o) ≤ 64 by omega) hp]
    by_cases h1 : o ≤ p
    · simp only [h1, true_and, show p < o + (64 - o) by omega, if_true]
      cases ord with
      | lsb => rfl
      | msb =>
        simp only [splitFirst, fieldWeight, BitVec.getLsbD_ushiftRight]
        congr 1; omega
    · simp [h1]
  · dsimp only
    rw [getLsbD_maskWrite ord h8 w1 _ (show 0 + (n - (64 - o)) ≤ 64 by omega) hp]
    by_cases h1 : p + 64 < o + n
    · simp only [h1, Nat.zero_le, true_and, show p < 0 + (n - (64 - o)) by omega, if_true]
      cases ord with
      | lsb =>
        simp only [splitSecond, fieldWeight, BitVec.getLsbD_ushiftRight]
        congr 1; omega
      | msb =>
        simp only [splitSecond, fieldWeight, ones, BitVec.getLsbD_and, BitVec.getLsbD_setWidth,
          BitVec.getLsbD_allOnes]
        have e1 : n - (64 - o) - 1 - (p - 0) = n - 1 - (p + 64 - o) := by omega
        have e2 : n - 1 - (p + 64 - o) < 64 := by omega
        have e3 : n - 1 - (p + 64 - o) < n - (64 - o) := by omega
        rw [e1]
        simp only [e2, e3, decide_true, Bool.and_true]
    · simp [h1, show ¬ p < n - (64 - o) by omega]

/-- R147, R149, R151: a field write of staged bytes gives each stream bit of the span its new value. -/
theorem streamBit_fieldWrite (ord : Order) {W o n : Nat} (hW : IsWidth W) (ho : o ≤ 7) (hn : n ≤ W)
    (v : Word64) (bytes : List Byte) (hlen : o + n ≤ 8 * bytes.length) {p : Nat}
    (hp : p < 8 * bytes.length) (hlen2 : 8 * bytes.length < o + n + 8) :
    streamBit (fun j => (fieldWrite ord W o v n bytes).getD j 0) ord p =
      refWriteBit (fun j => bytes.getD j 0) ord o n v p := by
  have h8 := hW.dvd
  have h64 := hW.le
  have hp8 : p / 8 < bytes.length := by omega
  unfold fieldWrite refWriteBit
  split
  · subst n
    simp
  split
  · rename_i h0 h
    have hpW : p < W := by omega
    rw [streamBit_toBytes, getLsbD_maskWrite ord h8 _ _ h hpW, getLsbD_ofBytes_streamPlace]
    simp only [hp8, streamPlace_lt ord h8 hpW, decide_true, Bool.true_and,
      BitVec.getLsbD_setWidth]
    split
    · rename_i hin
      have := fieldWeight_lt (ord := ord) (show p - o < n by omega)
      simp [show fieldWeight ord n (p - o) < W by omega]
    · rfl
  split
  · rename_i h0 h h2
    have hpW : p < 2 * W := by omega
    have h8' : 8 ∣ 2 * W := by omega
    rw [streamBit_toBytes, getLsbD_maskWrite ord h8' _ _
      (show o + n ≤ 2 * W by rcases hW with rfl | rfl | rfl | rfl <;> omega) hpW,
      getLsbD_ofBytes_streamPlace]
    simp only [hp8, streamPlace_lt ord h8' hpW, decide_true, Bool.true_and,
      BitVec.getLsbD_setWidth]
    split
    · rename_i hin
      have := fieldWeight_lt (ord := ord) (show p - o < n by omega)
      simp [show fieldWeight ord n (p - o) < 2 * W by omega]
    · rfl
  · rename_i h0 h h2
    have hW64 := hW.split h2
    have hs : 64 < o + n := by omega
    dsimp only
    rw [streamBit_append, length_toBytes]
    split
    · rename_i h1
      have hw := (getLsbD_splitWrite ord (ofBytes 64 (bytes.take 8)) (ofBytes 64 (bytes.drop 8)) v
        ho (by omega) hs (show p < 64 by omega)).1
      rw [streamBit_toBytes, hw, getLsbD_ofBytes_streamPlace, streamBit_take h1]
      simp only [show p / 8 < 8 by omega, streamPlace_lt ord (show 8 ∣ 64 by decide)
        (show p < 64 by omega), decide_true, Bool.true_and, show p < o + n by omega, and_true]
    · rename_i h1
      have hw := (getLsbD_splitWrite ord (ofBytes 64 (bytes.take 8)) (ofBytes 64 (bytes.drop 8)) v
        ho (by omega) hs (show p - 8 * 8 < 64 by omega)).2
      rw [streamBit_toBytes, hw, getLsbD_ofBytes_streamPlace, streamBit_drop]
      have e1 : p - 8 * 8 + 64 = p := by omega
      have e2 : 8 * 8 + (p - 8 * 8) = p := by omega
      simp only [show (p - 8 * 8) / 8 < bytes.length - 8 by omega,
        streamPlace_lt ord (show 8 ∣ 64 by decide) (show p - 8 * 8 < 64 by omega), decide_true,
        Bool.true_and, e1, e2, show o ≤ p by omega, true_and]

/-! ## The reference reading -/

theorem getLsbD_ofNat_bit (b : Bool) {w : Nat} (hw : w < 64) (i : Nat) :
    (BitVec.ofNat 64 (b.toNat * 2 ^ w)).getLsbD i = (b && decide (i = w)) := by
  cases b with
  | false => simp
  | true =>
    simp only [Bool.toNat_true, Nat.one_mul, BitVec.getLsbD_ofNat, Nat.testBit_two_pow,
      Bool.true_and]
    by_cases h : i = w
    · subst i; simp [hw]
    · simp [h, Ne.symm h]

/-- R150's partial sum is the bits of the field it has gone over. -/
theorem getLsbD_refSum (byte : Nat → Byte) (ord : Order) (B : Nat) {n : Nat} (hn : n ≤ 64) {k : Nat}
    (hk : k ≤ n) (i : Nat) :
    (BitVec.ofNat 64 (refSum byte ord B n k)).getLsbD i =
      (decide (i < n ∧ fieldWeight ord n i < k) &&
        streamBit byte ord (B + fieldWeight ord n i)) := by
  induction k generalizing i with
  | zero => simp [refSum]
  | succ k ih =>
    have ih' := fun i => ih (by omega) i
    have hw : fieldWeight ord n k < 64 := by
      have := fieldWeight_lt (ord := ord) (show k < n by omega); omega
    have hww : fieldWeight ord n (fieldWeight ord n k) = k :=
      fieldWeight_fieldWeight (by omega)
    have hdis : BitVec.ofNat 64 (refSum byte ord B n k) &&&
        BitVec.ofNat 64 ((streamBit byte ord (B + k)).toNat * 2 ^ fieldWeight ord n k) = 0#64 := by
      apply BitVec.eq_of_getLsbD_eq
      intro j hj
      rw [BitVec.getLsbD_and, ih', getLsbD_ofNat_bit _ hw]
      by_cases h : j = fieldWeight ord n k
      · simp [h, hww]
      · simp [h]
    rw [refSum, BitVec.ofNat_add, BitVec.add_eq_or_of_and_eq_zero _ _ hdis, BitVec.getLsbD_or, ih',
      getLsbD_ofNat_bit _ hw]
    by_cases h : i = fieldWeight ord n k
    · subst h
      simp [hww, fieldWeight_lt (ord := ord) (show k < n by omega)]
    · have : ¬ (i < n ∧ fieldWeight ord n i = k) := by
        rintro ⟨h1, h2⟩
        exact h (by rw [← h2, fieldWeight_fieldWeight h1])
      have e : (i < n ∧ fieldWeight ord n i < k + 1) ↔ (i < n ∧ fieldWeight ord n i < k) := by
        constructor
        · rintro ⟨h1, h2⟩
          refine ⟨h1, ?_⟩
          rcases Nat.lt_succ_iff_lt_or_eq.mp h2 with h3 | h3
          · exact h3
          · exact absurd ⟨h1, h3⟩ this
        · rintro ⟨h1, h2⟩; exact ⟨h1, by omega⟩
      simp only [h, e, decide_false, Bool.and_false, Bool.or_false]

/-- R150: bit `i` of the reference reading is the stream bit of that weight. -/
theorem getLsbD_refRead (byte : Nat → Byte) (ord : Order) (B : Nat) {n : Nat} (hn : n ≤ 64)
    (i : Nat) :
    (BitVec.ofNat 64 (refRead byte ord B n)).getLsbD i =
      (decide (i < n) && streamBit byte ord (B + fieldWeight ord n i)) := by
  rw [refRead, getLsbD_refSum byte ord B hn (Nat.le_refl n)]
  by_cases hi : i < n
  · simp [hi, fieldWeight_lt (ord := ord) hi]
  · simp [hi]

end Sys2Proof.Machine
end

