-- ==== Sys2Proof/Laws/Memory.lean ====
section
/-! SUPPORT. The laws of window memory: a byte reads as last written, every other byte reads as before,
every operation keeps the canonical form, and memories in canonical form that read alike are equal. -/

namespace Sys2Proof.Machine

/-! ## Reads after writes -/

/-- A write leaves every other address as it was. -/
theorem Memory.read_write_ne (m : Memory) {x y : Nat} (v : Byte) (h : y ≠ x) :
    (Memory.write m x v).read y = m.read y := by
  induction m with
  | nil =>
    simp only [Memory.write]
    split <;> simp [Memory.read, Ne.symm h]
  | cons c m ih =>
    obtain ⟨a, w⟩ := c
    simp only [Memory.write]
    split
    · split <;> simp [Memory.read, Ne.symm h]
    split
    · rename_i h2
      subst h2
      split <;> simp [Memory.read, Ne.symm h]
    · simp only [Memory.read, ih]

/-- Below every listed address, memory reads as an unlisted byte. -/
theorem Memory.read_of_lt {lo : Nat} {m : Memory} (h : Memory.wfFrom lo m = true) {x : Nat}
    (hx : x < lo) : m.read x = Config.unlistedByte := by
  induction m generalizing lo with
  | nil => rfl
  | cons c m ih =>
    obtain ⟨a, w⟩ := c
    simp only [Memory.wfFrom, Bool.and_eq_true, decide_eq_true_eq] at h
    simp only [Memory.read, show a ≠ x by omega, if_false]
    exact ih h.2 (by omega)

theorem Memory.read_write_from {lo : Nat} {m : Memory} (h : Memory.wfFrom lo m = true) (x : Nat)
    (v : Byte) : (Memory.write m x v).read x = v := by
  induction m generalizing lo with
  | nil =>
    simp only [Memory.write]
    split
    · rename_i hv; simp [Memory.read, hv]
    · simp [Memory.read]
  | cons c m ih =>
    obtain ⟨a, w⟩ := c
    simp only [Memory.wfFrom, Bool.and_eq_true, decide_eq_true_eq] at h
    simp only [Memory.write]
    split
    · split
      · rename_i h1 hv
        subst hv
        simp only [Memory.read, show a ≠ x by omega, if_false]
        exact Memory.read_of_lt h.2 (by omega)
      · simp [Memory.read]
    split
    · rename_i h2
      subst h2
      split
      · rename_i hv
        subst hv
        exact Memory.read_of_lt h.2 (by omega)
      · simp [Memory.read]
    · simp only [Memory.read, show a ≠ x by omega, if_false]
      exact ih h.2

/-- A byte reads as it was last written. -/
theorem Memory.read_write_self {m : Memory} (h : m.wf = true) (x : Nat) (v : Byte) :
    (Memory.write m x v).read x = v := Memory.read_write_from h x v

/-! ## The canonical form -/

theorem Memory.wfFrom_mono {lo hi : Nat} {m : Memory} (h : Memory.wfFrom hi m = true)
    (hl : lo ≤ hi) : Memory.wfFrom lo m = true := by
  cases m with
  | nil => rfl
  | cons c m =>
    obtain ⟨a, w⟩ := c
    simp only [Memory.wfFrom, Bool.and_eq_true, decide_eq_true_eq] at h ⊢
    exact ⟨⟨by omega, h.1.2⟩, h.2⟩

theorem Memory.wfFrom_write {lo : Nat} {m : Memory} (h : Memory.wfFrom lo m = true) {x : Nat}
    (hx : lo ≤ x) (v : Byte) : Memory.wfFrom lo (Memory.write m x v) = true := by
  induction m generalizing lo with
  | nil =>
    simp only [Memory.write]
    split
    · rfl
    · rename_i hv; simp [Memory.wfFrom, hx, hv]
  | cons c m ih =>
    obtain ⟨a, w⟩ := c
    simp only [Memory.write]
    have h' := h
    simp only [Memory.wfFrom, Bool.and_eq_true, decide_eq_true_eq] at h'
    obtain ⟨⟨h1, h2⟩, h3⟩ := h'
    split
    · split
      · exact h
      · rename_i hxa hv
        simp only [Memory.wfFrom, Bool.and_eq_true, decide_eq_true_eq]
        exact ⟨⟨hx, by simpa using hv⟩, ⟨by omega, h2⟩, h3⟩
    split
    · rename_i hxa
      subst hxa
      split
      · exact Memory.wfFrom_mono h3 (by omega)
      · rename_i hv
        simp only [Memory.wfFrom, Bool.and_eq_true, decide_eq_true_eq]
        exact ⟨⟨hx, by simpa using hv⟩, h3⟩
    · simp only [Memory.wfFrom, Bool.and_eq_true, decide_eq_true_eq]
      exact ⟨⟨h1, h2⟩, ih h3 (by omega)⟩

/-- A write keeps the canonical form. -/
theorem Memory.wf_write {m : Memory} (h : m.wf = true) (x : Nat) (v : Byte) :
    (Memory.write m x v).wf = true := Memory.wfFrom_write h (Nat.zero_le x) v

/-- Every byte a list holds is not the unlisted one, and no address is below the bound. -/
theorem Memory.ext_from {lo : Nat} {m₁ m₂ : Memory} (h₁ : Memory.wfFrom lo m₁ = true)
    (h₂ : Memory.wfFrom lo m₂ = true) (h : ∀ x, m₁.read x = m₂.read x) : m₁ = m₂ := by
  induction m₁ generalizing lo m₂ with
  | nil =>
    cases m₂ with
    | nil => rfl
    | cons c m₂ =>
      obtain ⟨a, w⟩ := c
      simp only [Memory.wfFrom, Bool.and_eq_true] at h₂
      have := h a
      simp only [Memory.read, if_true] at this
      rw [← this] at h₂
      simp at h₂
  | cons c m₁ ih =>
    obtain ⟨a, w⟩ := c
    have h₁' := h₁
    simp only [Memory.wfFrom, Bool.and_eq_true, decide_eq_true_eq] at h₁'
    cases m₂ with
    | nil =>
      have := h a
      simp only [Memory.read, if_true] at this
      rw [this] at h₁'
      simp at h₁'
    | cons d m₂ =>
      obtain ⟨b, u⟩ := d
      have h₂' := h₂
      simp only [Memory.wfFrom, Bool.and_eq_true, decide_eq_true_eq] at h₂'
      have hab : a = b := by
        rcases Nat.lt_trichotomy a b with hlt | heq | hlt
        · have := h a
          simp only [Memory.read, if_true, show b ≠ a by omega, if_false] at this
          rw [Memory.read_of_lt h₂'.2 (by omega)] at this
          rw [this] at h₁'
          simp at h₁'
        · exact heq
        · have := h b
          simp only [Memory.read, if_true, show a ≠ b by omega, if_false] at this
          rw [Memory.read_of_lt h₁'.2 (by omega)] at this
          rw [← this] at h₂'
          simp at h₂'
      subst hab
      have hw : w = u := by have := h a; simpa [Memory.read] using this
      subst hw
      have : m₁ = m₂ := by
        refine ih h₁'.2 h₂'.2 fun x => ?_
        by_cases hx : a = x
        · subst hx
          rw [Memory.read_of_lt h₁'.2 (by omega), Memory.read_of_lt h₂'.2 (by omega)]
        · have := h x
          simpa [Memory.read, hx] using this
      rw [this]

/-- Memories in canonical form that read alike at every address are equal. -/
theorem Memory.ext {m₁ m₂ : Memory} (h₁ : m₁.wf = true) (h₂ : m₂.wf = true)
    (h : ∀ x, m₁.read x = m₂.read x) : m₁ = m₂ := Memory.ext_from h₁ h₂ h

/-! ## The address space -/

/-- A write lists no address but the one written. -/
theorem Memory.mem_write {m : Memory} {x : Nat} {v : Byte} {c : Host.Cell}
    (h : c ∈ Memory.write m x v) : c ∈ m ∨ c.1 = x := by
  induction m with
  | nil =>
    simp only [Memory.write] at h
    split at h
    · simp at h
    · simp only [List.mem_singleton] at h; right; rw [h]
  | cons d m ih =>
    obtain ⟨a, w⟩ := d
    simp only [Memory.write] at h
    split at h
    · split at h
      · exact .inl h
      · rcases List.mem_cons.mp h with rfl | h
        · exact .inr rfl
        · exact .inl h
    split at h
    · split at h
      · exact .inl (List.mem_cons_of_mem _ h)
      · rcases List.mem_cons.mp h with rfl | h
        · exact .inr rfl
        · exact .inl (List.mem_cons_of_mem _ h)
    · rcases List.mem_cons.mp h with rfl | h
      · exact .inl List.mem_cons_self
      · rcases ih h with h | h
        · exact .inl (List.mem_cons_of_mem _ h)
        · exact .inr h

/-! ## Several writes -/

theorem Memory.wf_writeAll {m : Memory} (h : m.wf = true) (cells : List Host.Cell) :
    (m.writeAll cells).wf = true := by
  induction cells generalizing m with
  | nil => exact h
  | cons c cells ih => exact ih (Memory.wf_write h c.1 c.2)

/-- Writes leave every address they do not name as it was. -/
theorem Memory.read_writeAll_of_not_mem (m : Memory) (cells : List Host.Cell) {x : Nat}
    (h : x ∉ cells.map (·.1)) : (m.writeAll cells).read x = m.read x := by
  induction cells generalizing m with
  | nil => rfl
  | cons c cells ih =>
    simp only [List.map_cons, List.mem_cons, not_or] at h
    simp only [Memory.writeAll]
    rw [ih _ h.2, Memory.read_write_ne _ _ h.1]

/-- Writes to distinct addresses are all found. -/
theorem Memory.read_writeAll_of_mem {m : Memory} (hm : m.wf = true) {cells : List Host.Cell}
    (hn : (cells.map (·.1)).Nodup) {c : Host.Cell} (h : c ∈ cells) :
    (m.writeAll cells).read c.1 = c.2 := by
  induction cells generalizing m with
  | nil => simp at h
  | cons d cells ih =>
    simp only [List.map_cons, List.nodup_cons] at hn
    simp only [Memory.writeAll]
    rcases List.mem_cons.mp h with rfl | h
    · rw [Memory.read_writeAll_of_not_mem _ _ hn.1, Memory.read_write_self hm]
    · exact ih (Memory.wf_write hm _ _) hn.2 h

/-- An address written to holds one of the bytes written to it. -/
theorem Memory.mem_of_read_writeAll {m : Memory} (hm : m.wf = true) {cells : List Host.Cell} {x : Nat}
    (h : x ∈ cells.map (·.1)) : (x, (m.writeAll cells).read x) ∈ cells := by
  induction cells generalizing m with
  | nil => simp at h
  | cons d cells ih =>
    simp only [Memory.writeAll]
    by_cases hc : x ∈ cells.map (·.1)
    · exact List.mem_cons_of_mem _ (ih (Memory.wf_write hm _ _) hc)
    · have hx : x = d.1 := by simpa [hc] using h
      subst hx
      rw [Memory.read_writeAll_of_not_mem _ _ hc, Memory.read_write_self hm]
      exact List.mem_cons_self

theorem Memory.mem_writeAll {m : Memory} {cells : List Host.Cell} {c : Host.Cell}
    (h : c ∈ m.writeAll cells) : c ∈ m ∨ c.1 ∈ cells.map (·.1) := by
  induction cells generalizing m with
  | nil => exact .inl h
  | cons d cells ih =>
    rcases ih h with h | h
    · rcases Memory.mem_write h with h | h
      · exact .inl h
      · exact .inr (by simp [h])
    · exact .inr (by simp only [List.map_cons, List.mem_cons]; exact .inr h)

theorem map_fst_freeCells (c : Nat) (addrs : List Nat) :
    (freeCells c addrs).map (·.1) = addrs := by
  induction addrs generalizing c with
  | nil => rfl
  | cons a as ih => simp [freeCells, ih]

/-- A free order of some writes has the same writes. -/
theorem freeOrder_perm (fuel c : Nat) (cells : List Host.Cell) : (freeOrder fuel c cells).Perm cells := by
  induction fuel generalizing c cells with
  | zero => exact .refl _
  | succ fuel ih =>
    simp only [freeOrder]
    split
    · exact .refl _
    · rename_i y hy
      obtain ⟨hi, rfl⟩ := List.getElem?_eq_some_iff.mp hy
      exact ((ih _ _).cons _).trans (List.getElem_cons_eraseIdx_perm hi)

theorem mem_freeOrder {fuel c : Nat} {cells : List Host.Cell} {x : Host.Cell}
    (h : x ∈ freeOrder fuel c cells) : x ∈ cells := (freeOrder_perm fuel c cells).mem_iff.mp h

end Sys2Proof.Machine
end

