-- ==== Sys2Proof/Laws/State.lean ====
section
/-! SUPPORT. One lemma per field per named update of the state, each true by `rfl`, so that no proof
unfolds a record update. -/

namespace Sys2Proof.Machine

variable (s : State)

/-! ### `succeed` -/

@[simp] theorem succeed_params : (succeed s).params = s.params := rfl
@[simp] theorem succeed_offset : (succeed s).offset = s.offset := rfl
@[simp] theorem succeed_count : (succeed s).count = s.count := rfl
@[simp] theorem succeed_wdata : (succeed s).wdata = s.wdata := rfl
@[simp] theorem succeed_rdata : (succeed s).rdata = s.rdata := rfl
@[simp] theorem succeed_scalar : (succeed s).scalar = s.scalar := rfl
@[simp] theorem succeed_pos : (succeed s).pos = s.pos := rfl
@[simp] theorem succeed_wbase : (succeed s).wbase = s.wbase := rfl
@[simp] theorem succeed_wlenReq : (succeed s).wlenReq = s.wlenReq := rfl
@[simp] theorem succeed_bound : (succeed s).bound = s.bound := rfl
@[simp] theorem succeed_winBase : (succeed s).winBase = s.winBase := rfl
@[simp] theorem succeed_winLen : (succeed s).winLen = s.winLen := rfl
@[simp] theorem succeed_err : (succeed s).err = .ok := rfl
@[simp] theorem succeed_sticky : (succeed s).sticky = s.sticky := rfl
@[simp] theorem succeed_busy : (succeed s).busy = s.busy := rfl
@[simp] theorem succeed_mem : (succeed s).mem = s.mem := rfl
@[simp] theorem succeed_port : (succeed s).port = s.port := rfl
@[simp] theorem succeed_raced : (succeed s).raced = s.raced := rfl
@[simp] theorem succeed_freeCount : (succeed s).freeCount = s.freeCount := rfl
@[simp] theorem succeed_hostQueue : (succeed s).hostQueue = s.hostQueue := rfl
@[simp] theorem succeed_hostData : (succeed s).hostData = s.hostData := rfl

/-! ### `raise` -/

@[simp] theorem raise_params (c : ResultCode) : (raise s c).params = s.params := rfl
@[simp] theorem raise_offset (c : ResultCode) : (raise s c).offset = s.offset := rfl
@[simp] theorem raise_count (c : ResultCode) : (raise s c).count = s.count := rfl
@[simp] theorem raise_wdata (c : ResultCode) : (raise s c).wdata = s.wdata := rfl
@[simp] theorem raise_rdata (c : ResultCode) : (raise s c).rdata = s.rdata := rfl
@[simp] theorem raise_scalar (c : ResultCode) : (raise s c).scalar = s.scalar := rfl
@[simp] theorem raise_pos (c : ResultCode) : (raise s c).pos = s.pos := rfl
@[simp] theorem raise_wbase (c : ResultCode) : (raise s c).wbase = s.wbase := rfl
@[simp] theorem raise_wlenReq (c : ResultCode) : (raise s c).wlenReq = s.wlenReq := rfl
@[simp] theorem raise_bound (c : ResultCode) : (raise s c).bound = s.bound := rfl
@[simp] theorem raise_winBase (c : ResultCode) : (raise s c).winBase = s.winBase := rfl
@[simp] theorem raise_winLen (c : ResultCode) : (raise s c).winLen = s.winLen := rfl
@[simp] theorem raise_err (c : ResultCode) : (raise s c).err = c := rfl
@[simp] theorem raise_sticky (c : ResultCode) : (raise s c).sticky = true := rfl
@[simp] theorem raise_busy (c : ResultCode) : (raise s c).busy = s.busy := rfl
@[simp] theorem raise_mem (c : ResultCode) : (raise s c).mem = s.mem := rfl
@[simp] theorem raise_port (c : ResultCode) : (raise s c).port = s.port := rfl
@[simp] theorem raise_raced (c : ResultCode) : (raise s c).raced = s.raced := rfl
@[simp] theorem raise_freeCount (c : ResultCode) : (raise s c).freeCount = s.freeCount := rfl
@[simp] theorem raise_hostQueue (c : ResultCode) : (raise s c).hostQueue = s.hostQueue := rfl
@[simp] theorem raise_hostData (c : ResultCode) : (raise s c).hostData = s.hostData := rfl

/-! ### `State.setRdata` -/

@[simp] theorem State.setRdata_params (v : Word64) : (s.setRdata v).params = s.params := rfl
@[simp] theorem State.setRdata_offset (v : Word64) : (s.setRdata v).offset = s.offset := rfl
@[simp] theorem State.setRdata_count (v : Word64) : (s.setRdata v).count = s.count := rfl
@[simp] theorem State.setRdata_wdata (v : Word64) : (s.setRdata v).wdata = s.wdata := rfl
@[simp] theorem State.setRdata_rdata (v : Word64) : (s.setRdata v).rdata = v := rfl
@[simp] theorem State.setRdata_scalar (v : Word64) : (s.setRdata v).scalar = s.scalar := rfl
@[simp] theorem State.setRdata_pos (v : Word64) : (s.setRdata v).pos = s.pos := rfl
@[simp] theorem State.setRdata_wbase (v : Word64) : (s.setRdata v).wbase = s.wbase := rfl
@[simp] theorem State.setRdata_wlenReq (v : Word64) : (s.setRdata v).wlenReq = s.wlenReq := rfl
@[simp] theorem State.setRdata_bound (v : Word64) : (s.setRdata v).bound = s.bound := rfl
@[simp] theorem State.setRdata_winBase (v : Word64) : (s.setRdata v).winBase = s.winBase := rfl
@[simp] theorem State.setRdata_winLen (v : Word64) : (s.setRdata v).winLen = s.winLen := rfl
@[simp] theorem State.setRdata_err (v : Word64) : (s.setRdata v).err = s.err := rfl
@[simp] theorem State.setRdata_sticky (v : Word64) : (s.setRdata v).sticky = s.sticky := rfl
@[simp] theorem State.setRdata_busy (v : Word64) : (s.setRdata v).busy = s.busy := rfl
@[simp] theorem State.setRdata_mem (v : Word64) : (s.setRdata v).mem = s.mem := rfl
@[simp] theorem State.setRdata_port (v : Word64) : (s.setRdata v).port = s.port := rfl
@[simp] theorem State.setRdata_raced (v : Word64) : (s.setRdata v).raced = s.raced := rfl
@[simp] theorem State.setRdata_freeCount (v : Word64) : (s.setRdata v).freeCount = s.freeCount := rfl
@[simp] theorem State.setRdata_hostQueue (v : Word64) : (s.setRdata v).hostQueue = s.hostQueue := rfl
@[simp] theorem State.setRdata_hostData (v : Word64) : (s.setRdata v).hostData = s.hostData := rfl

/-! ### `State.setScalar` -/

@[simp] theorem State.setScalar_params (v : Word64) : (s.setScalar v).params = s.params := rfl
@[simp] theorem State.setScalar_offset (v : Word64) : (s.setScalar v).offset = s.offset := rfl
@[simp] theorem State.setScalar_count (v : Word64) : (s.setScalar v).count = s.count := rfl
@[simp] theorem State.setScalar_wdata (v : Word64) : (s.setScalar v).wdata = s.wdata := rfl
@[simp] theorem State.setScalar_rdata (v : Word64) : (s.setScalar v).rdata = s.rdata := rfl
@[simp] theorem State.setScalar_scalar (v : Word64) : (s.setScalar v).scalar = v := rfl
@[simp] theorem State.setScalar_pos (v : Word64) : (s.setScalar v).pos = s.pos := rfl
@[simp] theorem State.setScalar_wbase (v : Word64) : (s.setScalar v).wbase = s.wbase := rfl
@[simp] theorem State.setScalar_wlenReq (v : Word64) : (s.setScalar v).wlenReq = s.wlenReq := rfl
@[simp] theorem State.setScalar_bound (v : Word64) : (s.setScalar v).bound = s.bound := rfl
@[simp] theorem State.setScalar_winBase (v : Word64) : (s.setScalar v).winBase = s.winBase := rfl
@[simp] theorem State.setScalar_winLen (v : Word64) : (s.setScalar v).winLen = s.winLen := rfl
@[simp] theorem State.setScalar_err (v : Word64) : (s.setScalar v).err = s.err := rfl
@[simp] theorem State.setScalar_sticky (v : Word64) : (s.setScalar v).sticky = s.sticky := rfl
@[simp] theorem State.setScalar_busy (v : Word64) : (s.setScalar v).busy = s.busy := rfl
@[simp] theorem State.setScalar_mem (v : Word64) : (s.setScalar v).mem = s.mem := rfl
@[simp] theorem State.setScalar_port (v : Word64) : (s.setScalar v).port = s.port := rfl
@[simp] theorem State.setScalar_raced (v : Word64) : (s.setScalar v).raced = s.raced := rfl
@[simp] theorem State.setScalar_freeCount (v : Word64) : (s.setScalar v).freeCount = s.freeCount := rfl
@[simp] theorem State.setScalar_hostQueue (v : Word64) : (s.setScalar v).hostQueue = s.hostQueue := rfl
@[simp] theorem State.setScalar_hostData (v : Word64) : (s.setScalar v).hostData = s.hostData := rfl

/-! ### `State.setPos` -/

@[simp] theorem State.setPos_params (v : Word32) : (s.setPos v).params = s.params := rfl
@[simp] theorem State.setPos_offset (v : Word32) : (s.setPos v).offset = s.offset := rfl
@[simp] theorem State.setPos_count (v : Word32) : (s.setPos v).count = s.count := rfl
@[simp] theorem State.setPos_wdata (v : Word32) : (s.setPos v).wdata = s.wdata := rfl
@[simp] theorem State.setPos_rdata (v : Word32) : (s.setPos v).rdata = s.rdata := rfl
@[simp] theorem State.setPos_scalar (v : Word32) : (s.setPos v).scalar = s.scalar := rfl
@[simp] theorem State.setPos_pos (v : Word32) : (s.setPos v).pos = v := rfl
@[simp] theorem State.setPos_wbase (v : Word32) : (s.setPos v).wbase = s.wbase := rfl
@[simp] theorem State.setPos_wlenReq (v : Word32) : (s.setPos v).wlenReq = s.wlenReq := rfl
@[simp] theorem State.setPos_bound (v : Word32) : (s.setPos v).bound = s.bound := rfl
@[simp] theorem State.setPos_winBase (v : Word32) : (s.setPos v).winBase = s.winBase := rfl
@[simp] theorem State.setPos_winLen (v : Word32) : (s.setPos v).winLen = s.winLen := rfl
@[simp] theorem State.setPos_err (v : Word32) : (s.setPos v).err = s.err := rfl
@[simp] theorem State.setPos_sticky (v : Word32) : (s.setPos v).sticky = s.sticky := rfl
@[simp] theorem State.setPos_busy (v : Word32) : (s.setPos v).busy = s.busy := rfl
@[simp] theorem State.setPos_mem (v : Word32) : (s.setPos v).mem = s.mem := rfl
@[simp] theorem State.setPos_port (v : Word32) : (s.setPos v).port = s.port := rfl
@[simp] theorem State.setPos_raced (v : Word32) : (s.setPos v).raced = s.raced := rfl
@[simp] theorem State.setPos_freeCount (v : Word32) : (s.setPos v).freeCount = s.freeCount := rfl
@[simp] theorem State.setPos_hostQueue (v : Word32) : (s.setPos v).hostQueue = s.hostQueue := rfl
@[simp] theorem State.setPos_hostData (v : Word32) : (s.setPos v).hostData = s.hostData := rfl

/-! ### `State.setMem` -/

@[simp] theorem State.setMem_params (m : Memory) : (s.setMem m).params = s.params := rfl
@[simp] theorem State.setMem_offset (m : Memory) : (s.setMem m).offset = s.offset := rfl
@[simp] theorem State.setMem_count (m : Memory) : (s.setMem m).count = s.count := rfl
@[simp] theorem State.setMem_wdata (m : Memory) : (s.setMem m).wdata = s.wdata := rfl
@[simp] theorem State.setMem_rdata (m : Memory) : (s.setMem m).rdata = s.rdata := rfl
@[simp] theorem State.setMem_scalar (m : Memory) : (s.setMem m).scalar = s.scalar := rfl
@[simp] theorem State.setMem_pos (m : Memory) : (s.setMem m).pos = s.pos := rfl
@[simp] theorem State.setMem_wbase (m : Memory) : (s.setMem m).wbase = s.wbase := rfl
@[simp] theorem State.setMem_wlenReq (m : Memory) : (s.setMem m).wlenReq = s.wlenReq := rfl
@[simp] theorem State.setMem_bound (m : Memory) : (s.setMem m).bound = s.bound := rfl
@[simp] theorem State.setMem_winBase (m : Memory) : (s.setMem m).winBase = s.winBase := rfl
@[simp] theorem State.setMem_winLen (m : Memory) : (s.setMem m).winLen = s.winLen := rfl
@[simp] theorem State.setMem_err (m : Memory) : (s.setMem m).err = s.err := rfl
@[simp] theorem State.setMem_sticky (m : Memory) : (s.setMem m).sticky = s.sticky := rfl
@[simp] theorem State.setMem_busy (m : Memory) : (s.setMem m).busy = s.busy := rfl
@[simp] theorem State.setMem_mem (m : Memory) : (s.setMem m).mem = m := rfl
@[simp] theorem State.setMem_port (m : Memory) : (s.setMem m).port = s.port := rfl
@[simp] theorem State.setMem_raced (m : Memory) : (s.setMem m).raced = s.raced := rfl
@[simp] theorem State.setMem_freeCount (m : Memory) : (s.setMem m).freeCount = s.freeCount := rfl
@[simp] theorem State.setMem_hostQueue (m : Memory) : (s.setMem m).hostQueue = s.hostQueue := rfl
@[simp] theorem State.setMem_hostData (m : Memory) : (s.setMem m).hostData = s.hostData := rfl

/-! ### `State.setRaced` -/

@[simp] theorem State.setRaced_params (l : List Nat) : (s.setRaced l).params = s.params := rfl
@[simp] theorem State.setRaced_offset (l : List Nat) : (s.setRaced l).offset = s.offset := rfl
@[simp] theorem State.setRaced_count (l : List Nat) : (s.setRaced l).count = s.count := rfl
@[simp] theorem State.setRaced_wdata (l : List Nat) : (s.setRaced l).wdata = s.wdata := rfl
@[simp] theorem State.setRaced_rdata (l : List Nat) : (s.setRaced l).rdata = s.rdata := rfl
@[simp] theorem State.setRaced_scalar (l : List Nat) : (s.setRaced l).scalar = s.scalar := rfl
@[simp] theorem State.setRaced_pos (l : List Nat) : (s.setRaced l).pos = s.pos := rfl
@[simp] theorem State.setRaced_wbase (l : List Nat) : (s.setRaced l).wbase = s.wbase := rfl
@[simp] theorem State.setRaced_wlenReq (l : List Nat) : (s.setRaced l).wlenReq = s.wlenReq := rfl
@[simp] theorem State.setRaced_bound (l : List Nat) : (s.setRaced l).bound = s.bound := rfl
@[simp] theorem State.setRaced_winBase (l : List Nat) : (s.setRaced l).winBase = s.winBase := rfl
@[simp] theorem State.setRaced_winLen (l : List Nat) : (s.setRaced l).winLen = s.winLen := rfl
@[simp] theorem State.setRaced_err (l : List Nat) : (s.setRaced l).err = s.err := rfl
@[simp] theorem State.setRaced_sticky (l : List Nat) : (s.setRaced l).sticky = s.sticky := rfl
@[simp] theorem State.setRaced_busy (l : List Nat) : (s.setRaced l).busy = s.busy := rfl
@[simp] theorem State.setRaced_mem (l : List Nat) : (s.setRaced l).mem = s.mem := rfl
@[simp] theorem State.setRaced_port (l : List Nat) : (s.setRaced l).port = s.port := rfl
@[simp] theorem State.setRaced_raced (l : List Nat) : (s.setRaced l).raced = l := rfl
@[simp] theorem State.setRaced_freeCount (l : List Nat) : (s.setRaced l).freeCount = s.freeCount := rfl
@[simp] theorem State.setRaced_hostQueue (l : List Nat) : (s.setRaced l).hostQueue = s.hostQueue := rfl
@[simp] theorem State.setRaced_hostData (l : List Nat) : (s.setRaced l).hostData = s.hostData := rfl

/-! ### `State.useFree` -/

@[simp] theorem State.useFree_params (n : Nat) : (s.useFree n).params = s.params := rfl
@[simp] theorem State.useFree_offset (n : Nat) : (s.useFree n).offset = s.offset := rfl
@[simp] theorem State.useFree_count (n : Nat) : (s.useFree n).count = s.count := rfl
@[simp] theorem State.useFree_wdata (n : Nat) : (s.useFree n).wdata = s.wdata := rfl
@[simp] theorem State.useFree_rdata (n : Nat) : (s.useFree n).rdata = s.rdata := rfl
@[simp] theorem State.useFree_scalar (n : Nat) : (s.useFree n).scalar = s.scalar := rfl
@[simp] theorem State.useFree_pos (n : Nat) : (s.useFree n).pos = s.pos := rfl
@[simp] theorem State.useFree_wbase (n : Nat) : (s.useFree n).wbase = s.wbase := rfl
@[simp] theorem State.useFree_wlenReq (n : Nat) : (s.useFree n).wlenReq = s.wlenReq := rfl
@[simp] theorem State.useFree_bound (n : Nat) : (s.useFree n).bound = s.bound := rfl
@[simp] theorem State.useFree_winBase (n : Nat) : (s.useFree n).winBase = s.winBase := rfl
@[simp] theorem State.useFree_winLen (n : Nat) : (s.useFree n).winLen = s.winLen := rfl
@[simp] theorem State.useFree_err (n : Nat) : (s.useFree n).err = s.err := rfl
@[simp] theorem State.useFree_sticky (n : Nat) : (s.useFree n).sticky = s.sticky := rfl
@[simp] theorem State.useFree_busy (n : Nat) : (s.useFree n).busy = s.busy := rfl
@[simp] theorem State.useFree_mem (n : Nat) : (s.useFree n).mem = s.mem := rfl
@[simp] theorem State.useFree_port (n : Nat) : (s.useFree n).port = s.port := rfl
@[simp] theorem State.useFree_raced (n : Nat) : (s.useFree n).raced = s.raced := rfl
@[simp] theorem State.useFree_freeCount (n : Nat) : (s.useFree n).freeCount = s.freeCount + n := rfl
@[simp] theorem State.useFree_hostQueue (n : Nat) : (s.useFree n).hostQueue = s.hostQueue := rfl
@[simp] theorem State.useFree_hostData (n : Nat) : (s.useFree n).hostData = s.hostData := rfl

/-! ### `State.setWindow` -/

@[simp] theorem State.setWindow_params (b : Word64) (l : Word32) : (s.setWindow b l).params = s.params := rfl
@[simp] theorem State.setWindow_offset (b : Word64) (l : Word32) : (s.setWindow b l).offset = s.offset := rfl
@[simp] theorem State.setWindow_count (b : Word64) (l : Word32) : (s.setWindow b l).count = s.count := rfl
@[simp] theorem State.setWindow_wdata (b : Word64) (l : Word32) : (s.setWindow b l).wdata = s.wdata := rfl
@[simp] theorem State.setWindow_rdata (b : Word64) (l : Word32) : (s.setWindow b l).rdata = s.rdata := rfl
@[simp] theorem State.setWindow_scalar (b : Word64) (l : Word32) : (s.setWindow b l).scalar = s.scalar := rfl
@[simp] theorem State.setWindow_pos (b : Word64) (l : Word32) : (s.setWindow b l).pos = s.pos := rfl
@[simp] theorem State.setWindow_wbase (b : Word64) (l : Word32) : (s.setWindow b l).wbase = s.wbase := rfl
@[simp] theorem State.setWindow_wlenReq (b : Word64) (l : Word32) : (s.setWindow b l).wlenReq = s.wlenReq := rfl
@[simp] theorem State.setWindow_bound (b : Word64) (l : Word32) : (s.setWindow b l).bound = true := rfl
@[simp] theorem State.setWindow_winBase (b : Word64) (l : Word32) : (s.setWindow b l).winBase = b := rfl
@[simp] theorem State.setWindow_winLen (b : Word64) (l : Word32) : (s.setWindow b l).winLen = l := rfl
@[simp] theorem State.setWindow_err (b : Word64) (l : Word32) : (s.setWindow b l).err = s.err := rfl
@[simp] theorem State.setWindow_sticky (b : Word64) (l : Word32) : (s.setWindow b l).sticky = s.sticky := rfl
@[simp] theorem State.setWindow_busy (b : Word64) (l : Word32) : (s.setWindow b l).busy = s.busy := rfl
@[simp] theorem State.setWindow_mem (b : Word64) (l : Word32) : (s.setWindow b l).mem = s.mem := rfl
@[simp] theorem State.setWindow_port (b : Word64) (l : Word32) : (s.setWindow b l).port = s.port := rfl
@[simp] theorem State.setWindow_raced (b : Word64) (l : Word32) : (s.setWindow b l).raced = s.raced := rfl
@[simp] theorem State.setWindow_freeCount (b : Word64) (l : Word32) : (s.setWindow b l).freeCount = s.freeCount := rfl
@[simp] theorem State.setWindow_hostQueue (b : Word64) (l : Word32) : (s.setWindow b l).hostQueue = s.hostQueue := rfl
@[simp] theorem State.setWindow_hostData (b : Word64) (l : Word32) : (s.setWindow b l).hostData = s.hostData := rfl

/-! ### `State.setBusy` -/

@[simp] theorem State.setBusy_params (b : Bool) : (s.setBusy b).params = s.params := rfl
@[simp] theorem State.setBusy_offset (b : Bool) : (s.setBusy b).offset = s.offset := rfl
@[simp] theorem State.setBusy_count (b : Bool) : (s.setBusy b).count = s.count := rfl
@[simp] theorem State.setBusy_wdata (b : Bool) : (s.setBusy b).wdata = s.wdata := rfl
@[simp] theorem State.setBusy_rdata (b : Bool) : (s.setBusy b).rdata = s.rdata := rfl
@[simp] theorem State.setBusy_scalar (b : Bool) : (s.setBusy b).scalar = s.scalar := rfl
@[simp] theorem State.setBusy_pos (b : Bool) : (s.setBusy b).pos = s.pos := rfl
@[simp] theorem State.setBusy_wbase (b : Bool) : (s.setBusy b).wbase = s.wbase := rfl
@[simp] theorem State.setBusy_wlenReq (b : Bool) : (s.setBusy b).wlenReq = s.wlenReq := rfl
@[simp] theorem State.setBusy_bound (b : Bool) : (s.setBusy b).bound = s.bound := rfl
@[simp] theorem State.setBusy_winBase (b : Bool) : (s.setBusy b).winBase = s.winBase := rfl
@[simp] theorem State.setBusy_winLen (b : Bool) : (s.setBusy b).winLen = s.winLen := rfl
@[simp] theorem State.setBusy_err (b : Bool) : (s.setBusy b).err = s.err := rfl
@[simp] theorem State.setBusy_sticky (b : Bool) : (s.setBusy b).sticky = s.sticky := rfl
@[simp] theorem State.setBusy_busy (b : Bool) : (s.setBusy b).busy = b := rfl
@[simp] theorem State.setBusy_mem (b : Bool) : (s.setBusy b).mem = s.mem := rfl
@[simp] theorem State.setBusy_port (b : Bool) : (s.setBusy b).port = s.port := rfl
@[simp] theorem State.setBusy_raced (b : Bool) : (s.setBusy b).raced = s.raced := rfl
@[simp] theorem State.setBusy_freeCount (b : Bool) : (s.setBusy b).freeCount = s.freeCount := rfl
@[simp] theorem State.setBusy_hostQueue (b : Bool) : (s.setBusy b).hostQueue = s.hostQueue := rfl
@[simp] theorem State.setBusy_hostData (b : Bool) : (s.setBusy b).hostData = s.hostData := rfl

/-! ### `State.setHostData` -/

@[simp] theorem State.setHostData_params (v : Word32) : (s.setHostData v).params = s.params := rfl
@[simp] theorem State.setHostData_offset (v : Word32) : (s.setHostData v).offset = s.offset := rfl
@[simp] theorem State.setHostData_count (v : Word32) : (s.setHostData v).count = s.count := rfl
@[simp] theorem State.setHostData_wdata (v : Word32) : (s.setHostData v).wdata = s.wdata := rfl
@[simp] theorem State.setHostData_rdata (v : Word32) : (s.setHostData v).rdata = s.rdata := rfl
@[simp] theorem State.setHostData_scalar (v : Word32) : (s.setHostData v).scalar = s.scalar := rfl
@[simp] theorem State.setHostData_pos (v : Word32) : (s.setHostData v).pos = s.pos := rfl
@[simp] theorem State.setHostData_wbase (v : Word32) : (s.setHostData v).wbase = s.wbase := rfl
@[simp] theorem State.setHostData_wlenReq (v : Word32) : (s.setHostData v).wlenReq = s.wlenReq := rfl
@[simp] theorem State.setHostData_bound (v : Word32) : (s.setHostData v).bound = s.bound := rfl
@[simp] theorem State.setHostData_winBase (v : Word32) : (s.setHostData v).winBase = s.winBase := rfl
@[simp] theorem State.setHostData_winLen (v : Word32) : (s.setHostData v).winLen = s.winLen := rfl
@[simp] theorem State.setHostData_err (v : Word32) : (s.setHostData v).err = s.err := rfl
@[simp] theorem State.setHostData_sticky (v : Word32) : (s.setHostData v).sticky = s.sticky := rfl
@[simp] theorem State.setHostData_busy (v : Word32) : (s.setHostData v).busy = s.busy := rfl
@[simp] theorem State.setHostData_mem (v : Word32) : (s.setHostData v).mem = s.mem := rfl
@[simp] theorem State.setHostData_port (v : Word32) : (s.setHostData v).port = s.port := rfl
@[simp] theorem State.setHostData_raced (v : Word32) : (s.setHostData v).raced = s.raced := rfl
@[simp] theorem State.setHostData_freeCount (v : Word32) : (s.setHostData v).freeCount = s.freeCount := rfl
@[simp] theorem State.setHostData_hostQueue (v : Word32) : (s.setHostData v).hostQueue = s.hostQueue := rfl
@[simp] theorem State.setHostData_hostData (v : Word32) : (s.setHostData v).hostData = v := rfl

end Sys2Proof.Machine
end

