-- ==== Sys2Proof/Laws/Ops.lean ====
section
/-! SUPPORT. What each shared operation can do, said once: the validations, the staged reading of a
window span, the write-back and the free bytes, and the case split of every field, bit, seek and bind
operation. -/

namespace Sys2Proof.Machine

theorem isWidth_widthBits (p : Params) (w : WidthClass) : IsWidth (widthBits p w) := by
  cases w <;> simp [widthBits, IsWidth, Params.ptrW]

/-! ## Validation -/

/-- R171 passes exactly when the operands are legal. -/
theorem checkWindow_eq_none {s : State} {w : WidthClass} {B : Int} :
    checkWindow s B (sint s.count) (widthBits s.params w) = none ↔ FieldLegal s w B := by
  unfold checkWindow
  constructor
  · intro h
    split at h
    · cases h
    split at h
    · cases h
    split at h
    · cases h
    split at h
    · cases h
    · rename_i h0 h1 h2 h3
      exact ⟨by simpa using h0, by omega, by omega, by omega, by omega⟩
  · rintro ⟨h0, h1, h2, h3, h4⟩
    rw [if_neg (by simp [h0]), if_neg (by omega), if_neg (by omega), if_neg (by omega)]

/-- R171 fails with NULL_BUFFER when no window is bound, and else with OUT_OF_RANGE. -/
theorem checkWindow_eq_some {s : State} {B n : Int} {W : Nat} {c : ResultCode}
    (h : checkWindow s B n W = some c) :
    (s.bound = false ∧ c = .nullBuffer) ∨ (s.bound = true ∧ c = .outOfRange) := by
  unfold checkWindow at h
  split at h
  · rename_i hb
    cases h
    exact .inl ⟨by simpa using hb, rfl⟩
  · rename_i hb
    have hb' : s.bound = true := by simpa using hb
    split at h
    · cases h; exact .inr ⟨hb', rfl⟩
    split at h
    · cases h; exact .inr ⟨hb', rfl⟩
    split at h
    · cases h; exact .inr ⟨hb', rfl⟩
    · cases h

/-- R173 passes exactly when the operands are legal. -/
theorem checkScalar_eq_none {s : State} {w : WidthClass} :
    checkScalar (sint s.offset) (sint s.count) (widthBits s.params w) = none ↔ ScalarLegal s w := by
  unfold checkScalar
  constructor
  · intro h
    split at h
    · cases h
    split at h
    · cases h
    split at h
    · cases h
    · exact ⟨by omega, by omega, by omega, by omega⟩
  · rintro ⟨h1, h2, h3, h4⟩
    rw [if_neg (by omega), if_neg (by omega), if_neg (by omega)]

/-- R173 fails with OUT_OF_RANGE only. -/
theorem checkScalar_eq_some {B n : Int} {W : Nat} {c : ResultCode}
    (h : checkScalar B n W = some c) : c = .outOfRange := by
  unfold checkScalar at h
  split at h
  · cases h; rfl
  split at h
  · cases h; rfl
  split at h
  · cases h; rfl
  · cases h

/-- R290 passes exactly when the operand is legal. -/
theorem indexBit_eq_none {s : State} {B : Int} : indexBit s B = none ↔ BitLegal s B := by
  unfold indexBit
  constructor
  · intro h
    split at h
    · cases h
    split at h
    · cases h
    · rename_i h0 h1
      exact ⟨by simpa using h0, by omega, by omega⟩
  · rintro ⟨h0, h1, h2⟩
    rw [if_neg (by simp [h0]), if_neg (by omega)]

/-- R290 fails with NULL_BUFFER when no window is bound, and else with INDEX. -/
theorem indexBit_eq_some {s : State} {B : Int} {c : ResultCode} (h : indexBit s B = some c) :
    (s.bound = false ∧ c = .nullBuffer) ∨
      (s.bound = true ∧ (B / 8 < 0 ∨ (s.winLen.toNat : Int) ≤ B / 8) ∧ c = .index) := by
  unfold indexBit at h
  split at h
  · rename_i hb
    cases h
    exact .inl ⟨by simpa using hb, rfl⟩
  · rename_i hb
    split at h
    · rename_i hi
      cases h
      exact .inr ⟨by simpa using hb, hi, rfl⟩
    · cases h

/-! ## The port -/

theorem readErrs_eq_false {s : State} {addrs : List Nat} :
    readErrs s addrs = false ↔ PortReads s addrs := by
  simp [readErrs, PortReads]

theorem readErrs_eq_true {s : State} {addrs : List Nat} :
    readErrs s addrs = true ↔ ∃ x ∈ addrs, x ∈ s.port.readErrs := by
  simp [readErrs]

theorem writeErrs_eq_false {s : State} {addrs : List Nat} :
    writeErrs s addrs = false ↔ PortWrites s addrs := by
  simp only [writeErrs, readErrs, PortWrites, Bool.or_eq_false_iff, List.any_eq_false,
    List.contains_iff_mem]
  constructor
  · rintro ⟨h1, h2⟩ x hx
    exact ⟨h1 x hx, h2 x hx⟩
  · intro h
    exact ⟨fun x hx => (h x hx).1, fun x hx => (h x hx).2⟩

theorem writeErrs_eq_true {s : State} {addrs : List Nat} :
    writeErrs s addrs = true ↔ ∃ x ∈ addrs, x ∈ s.port.readErrs ∨ x ∈ s.port.writeErrs := by
  simp only [writeErrs, readErrs, Bool.or_eq_true, List.any_eq_true, List.contains_iff_mem]
  constructor
  · rintro (⟨x, hx, h⟩ | ⟨x, hx, h⟩)
    · exact ⟨x, hx, .inl h⟩
    · exact ⟨x, hx, .inr h⟩
  · rintro ⟨x, hx, h | h⟩
    · exact .inl ⟨x, hx, h⟩
    · exact .inr ⟨x, hx, h⟩

/-! ## Spans -/

theorem Params.addrSpace_pos (p : Params) : 0 < p.addrSpace := Nat.two_pow_pos _

theorem winAddr_lt (s : State) (i : Nat) : winAddr s i < s.params.addrSpace :=
  Nat.mod_lt _ (Params.addrSpace_pos _)

@[simp] theorem length_spanAddrs (s : State) (a k : Nat) : (spanAddrs s a k).length = k := by
  simp [spanAddrs]

theorem mem_spanAddrs {s : State} {a k x : Nat} :
    x ∈ spanAddrs s a k ↔ ∃ j < k, x = winAddr s (a + j) := by
  simp [spanAddrs, eq_comm]

/-- Two indices less than the address space apart have different addresses. -/
theorem winAddr_ne {s : State} {i j : Nat} (h : i < j) (hj : j < i + s.params.addrSpace) :
    winAddr s i ≠ winAddr s j := by
  unfold winAddr
  intro e
  have h1 := Nat.div_add_mod (s.winBase.toNat + i) s.params.addrSpace
  have h2 := Nat.div_add_mod (s.winBase.toNat + j) s.params.addrSpace
  rw [e] at h1
  generalize (s.winBase.toNat + i) / s.params.addrSpace = q at *
  generalize (s.winBase.toNat + j) / s.params.addrSpace = r at *
  generalize s.params.addrSpace = N at *
  have h3 : N * r = N * q + (j - i) := by omega
  rcases Nat.lt_or_ge q r with hlt | hge
  · have := Nat.mul_le_mul_left N hlt
    rw [Nat.mul_succ] at this
    omega
  · have := Nat.mul_le_mul_left N hge
    omega

theorem winAddr_inj {s : State} {a k i j : Nat} (hk : k ≤ s.params.addrSpace) (hi : i < k)
    (hj : j < k) (h : winAddr s (a + i) = winAddr s (a + j)) : i = j := by
  rcases Nat.lt_trichotomy i j with hlt | heq | hlt
  · exact absurd h (winAddr_ne (by omega) (by omega))
  · exact heq
  · exact absurd h.symm (winAddr_ne (by omega) (by omega))

/-- A span no longer than the address space covers no address twice. -/
theorem nodup_spanAddrs {s : State} {a k : Nat} (hk : k ≤ s.params.addrSpace) :
    (spanAddrs s a k).Nodup := by
  refine List.Nodup.map_on ?_ List.nodup_range
  intro i hi j hj h
  exact winAddr_inj hk (List.mem_range.mp hi) (List.mem_range.mp hj) h

/-- The span of `n` bits at sub-offset `o` holds them, and no byte too many. -/
theorem spanLength_spec (o n : Nat) (ho : o ≤ 7) :
    (n = 0 → spanLength o n = 0) ∧ o + n ≤ 8 * spanLength o n + o ∧
      (0 < n → o + n ≤ 8 * spanLength o n) ∧ 8 * spanLength o n < o + n + 8 := by
  unfold spanLength
  split <;> omega

theorem subOffset_le (B : Int) : subOffset B ≤ 7 := by
  unfold subOffset; omega

theorem byteIndex_subOffset (B : Int) : 8 * byteIndex B + subOffset B = B.toNat := by
  unfold byteIndex subOffset; omega

/-- R85: every index of a legal field's span is inside the window. -/
theorem FieldLegal.index_lt {s : State} {w : WidthClass} {B : Int} (h : FieldLegal s w B) {j : Nat}
    (hj : j < fieldBytes s B) : byteIndex B + j < s.winLen.toNat := by
  obtain ⟨_, h1, h2, h3, h4⟩ := h
  have e := byteIndex_subOffset B
  have := spanLength_spec (subOffset B) (sint s.count).toNat (subOffset_le B)
  unfold fieldBytes at hj
  by_cases hn : (sint s.count).toNat = 0
  · rw [this.1 hn] at hj; omega
  · omega

/-! ## Reading a span -/

@[simp] theorem length_stageBytes (s : State) (a k : Nat) : (stageBytes s a k).length = k := by
  simp [stageBytes]

theorem getD_stageBytes (s : State) (a : Nat) {k j : Nat} (hj : j < k) :
    (stageBytes s a k).getD j 0 = winRead s (a + j) := by
  simp [stageBytes, List.getD_eq_getElem?_getD, List.getElem?_map, List.getElem?_range hj]

theorem streamBit_stageBytes (s : State) (a : Nat) {k p : Nat} (ord : Order) (hp : p < 8 * k) :
    streamBit (fun j => (stageBytes s a k).getD j 0) ord p =
      streamBit (winRead s) ord (8 * a + p) := by
  have h1 : (8 * a + p) / 8 = a + p / 8 := by omega
  have h2 : streamPlace ord (8 * a + p) % 8 = streamPlace ord p % 8 := by
    cases ord <;> simp only [streamPlace, msbPlace] <;> omega
  rw [streamBit_eq, streamBit_eq, getD_stageBytes s a (by omega), h1, h2]

/-- R152: the staged reading of a legal span is the reference reading. -/
theorem fieldRead_stageBytes {ord : Order} {W n : Nat} (hW : IsWidth W) (hn : n ≤ W) (s : State)
    (B : Int) :
    fieldRead ord W (subOffset B) n (stageBytes s (byteIndex B) (spanLength (subOffset B) n)) =
      BitVec.ofNat 64 (refRead (winRead s) ord B.toNat n) := by
  have ho := subOffset_le B
  have e := byteIndex_subOffset B
  apply BitVec.eq_of_getLsbD_eq
  intro i _
  rw [getLsbD_fieldRead ord hW ho hn, getLsbD_refRead _ _ _ (Nat.le_trans hn hW.le)]
  by_cases hi : i < n
  · have hw := fieldWeight_lt (ord := ord) hi
    have := (spanLength_spec (subOffset B) n ho).2.2.1 (by omega)
    rw [streamBit_stageBytes s _ ord (by omega), ← e]
    simp [hi, Nat.add_assoc]
  · simp [hi]

/-! ## Writing a span -/

/-- Memory is `s`'s outside the addresses, keeps its form, and lists no new address but those. -/
structure KeepsOutside (s : State) (addrs : List Nat) (m : Memory) : Prop where
  outside : ∀ x, x ∉ addrs → m.read x = s.mem.read x
  canonical : s.mem.wf = true → m.wf = true
  listed : ∀ c ∈ m, c ∈ s.mem ∨ c.1 ∈ addrs

theorem KeepsOutside.writeAll (s : State) {addrs : List Nat} {cells : List Host.Cell}
    (h : ∀ c ∈ cells, c.1 ∈ addrs) : KeepsOutside s addrs (s.mem.writeAll cells) where
  outside x hx := by
    refine Memory.read_writeAll_of_not_mem _ _ fun hm => hx ?_
    obtain ⟨c, hc, rfl⟩ := List.mem_map.mp hm
    exact h c hc
  canonical hm := Memory.wf_writeAll hm _
  listed c hc := by
    rcases Memory.mem_writeAll hc with h1 | h1
    · exact .inl h1
    · obtain ⟨d, hd, e⟩ := List.mem_map.mp h1
      exact .inr (e ▸ h d hd)

theorem mem_backCells {s : State} {a : Nat} {bytes : List Byte} {c : Host.Cell}
    (h : c ∈ backCells s a bytes) : c.1 ∈ spanAddrs s a bytes.length := (List.of_mem_zip h).1

theorem map_fst_backCells (s : State) (a : Nat) (bytes : List Byte) :
    (backCells s a bytes).map (·.1) = spanAddrs s a bytes.length := by
  have := List.map_fst_zip (l₁ := spanAddrs s a bytes.length) (l₂ := bytes) (by simp)
  simpa [backCells] using this

/-- What a write-back does (R147): window memory changes inside the span only; the count of free values
moves only where the span is longer than the address space. -/
theorem writeBack_eq (s : State) (a : Nat) (bytes : List Byte) :
    ∃ m f, writeBack s a bytes = { s with mem := m, freeCount := f } ∧
      KeepsOutside s (spanAddrs s a bytes.length) m ∧
      (bytes.length ≤ s.params.addrSpace → f = s.freeCount) := by
  unfold writeBack
  split
  · exact ⟨_, s.freeCount, rfl, KeepsOutside.writeAll s fun c hc => mem_backCells hc, fun _ => rfl⟩
  · rename_i h
    exact ⟨_, _, rfl, KeepsOutside.writeAll s fun c hc => mem_backCells (mem_freeOrder hc),
      fun h' => absurd h' h⟩

/-- The bytes of a write-back are found at their indices (R147). -/
theorem heldByte_writeBack {s : State} (hm : s.mem.wf = true) {a : Nat} {bytes : List Byte}
    (hk : bytes.length ≤ s.params.addrSpace) {j : Nat} (hj : j < bytes.length) :
    heldByte (writeBack s a bytes) (a + j) = bytes.getD j 0 := by
  unfold writeBack
  rw [if_pos hk]
  have hmem : (winAddr s (a + j), bytes[j]) ∈ backCells s a bytes := by
    rw [List.mem_iff_getElem?]
    refine ⟨j, ?_⟩
    simp [backCells, spanAddrs, hj]
  have := Memory.read_writeAll_of_mem hm
    (by rw [map_fst_backCells]; exact nodup_spanAddrs hk) hmem
  simpa [heldByte, winAddr, List.getD_eq_getElem?_getD, hj] using this

/-- After any write-back, an address of the span holds one of the bytes written to it (R87, R147). -/
theorem read_writeBack_mem {s : State} (hm : s.mem.wf = true) {a : Nat} {bytes : List Byte} {x : Nat}
    (hx : x ∈ spanAddrs s a bytes.length) :
    (x, (writeBack s a bytes).mem.read x) ∈ backCells s a bytes := by
  rw [← map_fst_backCells] at hx
  unfold writeBack
  split
  · exact Memory.mem_of_read_writeAll hm hx
  · have hp := freeOrder_perm bytes.length s.freeCount (backCells s a bytes)
    exact hp.mem_iff.mp (Memory.mem_of_read_writeAll hm ((hp.map _).mem_iff.mpr hx))

/-- The pairs of a write-back, by index. -/
theorem mem_backCells_iff {s : State} {a : Nat} {bytes : List Byte} {x : Nat} {v : Byte} :
    (x, v) ∈ backCells s a bytes ↔ ∃ j < bytes.length, x = winAddr s (a + j) ∧ v = bytes.getD j 0 := by
  rw [List.mem_iff_getElem?]
  refine exists_congr fun j => ?_
  by_cases hj : j < bytes.length
  · simp [backCells, spanAddrs, hj, eq_comm]
  · simp [backCells, spanAddrs, hj]

/-- With no race on, a window index reads the byte held there. -/
theorem winRead_of_noRace {s : State} (h : s.raced = []) : winRead s = heldByte s := by
  funext i
  simp [winRead, h]

/-- What free bytes do (R386, R421, R92(d)). -/
theorem scramble_eq (s : State) (addrs : List Nat) :
    ∃ m, scramble s addrs = { s with mem := m, freeCount := s.freeCount + addrs.length } ∧
      KeepsOutside s addrs m :=
  ⟨_, rfl, KeepsOutside.writeAll s fun c hc => by
    have := List.mem_map_of_mem (f := (·.1)) hc
    rwa [map_fst_freeCells] at this⟩

/-! ## What each operation can do -/

/-- A window read faults in its validation, faults at the port, or reads (R172). -/
theorem readField_cases (w : WidthClass) (g : Sign) (ord : Order) (B : Int) (s : State) :
    (∃ c, checkWindow s B (sint s.count) (widthBits s.params w) = some c ∧
        readField w g ord B s = raise s c) ∨
      (FieldLegal s w B ∧ readErrs s (fieldAddrs s B) = true ∧
        readField w g ord B s = raise s .busError) ∨
      (FieldLegal s w B ∧ PortReads s (fieldAddrs s B) ∧
        readField w g ord B s = succeed (s.setRdata
          (present g (widthBits s.params w) (sint s.count).toNat
            (BitVec.ofNat 64 (refRead (winRead s) ord B.toNat (sint s.count).toNat))))) := by
  unfold readField
  dsimp only
  cases hc : checkWindow s B (sint s.count) (widthBits s.params w) with
  | some c => exact .inl ⟨c, rfl, rfl⟩
  | none =>
    have hl := checkWindow_eq_none.mp hc
    right
    dsimp only
    by_cases hp : readErrs s (fieldAddrs s B) = true
    · exact .inl ⟨hl, hp, if_pos hp⟩
    · refine .inr ⟨hl, readErrs_eq_false.mp (by simpa using hp), ?_⟩
      have hn : (sint s.count).toNat ≤ widthBits s.params w := by have := hl.countWidth; omega
      rw [← fieldRead_stageBytes (isWidth_widthBits _ _) hn]
      exact if_neg hp

/-- A window write faults in its validation, faults at the port, or writes (R232). -/
theorem writeField_cases (w : WidthClass) (ord : Order) (B : Int) (s : State) :
    (∃ c, checkWindow s B (sint s.count) (widthBits s.params w) = some c ∧
        writeField w ord B s = raise s c) ∨
      (FieldLegal s w B ∧ writeErrs s (fieldAddrs s B) = true ∧
        writeField w ord B s = raise (scramble s (fieldAddrs s B)) .busError) ∨
      (FieldLegal s w B ∧ PortWrites s (fieldAddrs s B) ∧
        writeField w ord B s = succeed (writeBack s (byteIndex B)
          (fieldWrite ord (widthBits s.params w) (subOffset B) (trunc s.wdata (sint s.count).toNat)
            (sint s.count).toNat (stageBytes s (byteIndex B) (fieldBytes s B))))) := by
  unfold writeField
  dsimp only
  cases hc : checkWindow s B (sint s.count) (widthBits s.params w) with
  | some c => exact .inl ⟨c, rfl, rfl⟩
  | none =>
    have hl := checkWindow_eq_none.mp hc
    right
    dsimp only
    by_cases hp : writeErrs s (fieldAddrs s B) = true
    · exact .inl ⟨hl, hp, if_pos hp⟩
    · exact .inr ⟨hl, writeErrs_eq_false.mp (by simpa using hp), if_neg hp⟩

/-- The merged bytes of a field write are as many as its span has. -/
theorem length_merged (s : State) (w : WidthClass) (B : Int) (ord : Order) (v : Word64) :
    (fieldWrite ord (widthBits s.params w) (subOffset B) v (sint s.count).toNat
      (stageBytes s (byteIndex B) (fieldBytes s B))).length = fieldBytes s B := by
  by_cases hn : (sint s.count).toNat = 0
  · simp [fieldWrite, hn]
  · rw [length_fieldWrite ord (isWidth_widthBits _ _)]
    · simp
    · have := (spanLength_spec (subOffset B) (sint s.count).toNat (subOffset_le B)).2.2.1
      rw [length_stageBytes, fieldBytes]
      exact this (by omega)

theorem getLsbD_trunc_of_lt {v : Word64} {n i : Nat} (h : i < n) :
    (trunc v n).getLsbD i = v.getLsbD i := by
  rw [getLsbD_trunc]
  by_cases h64 : i < 64
  · simp [h, h64]
  · simp [BitVec.getLsbD_of_ge v i (by omega)]

/-- R151: the stream bits of the byte merged for an index of the span of a legal field write. -/
theorem FieldLegal.streamBit_merged {s : State} {w : WidthClass} {B : Int} (h : FieldLegal s w B)
    (ord : Order) {p j : Nat} (hj : p / 8 = byteIndex B + j) (hk : j < fieldBytes s B) :
    streamBit (fun _ => (fieldWrite ord (widthBits s.params w) (subOffset B)
      (trunc s.wdata (sint s.count).toNat) (sint s.count).toNat
      (stageBytes s (byteIndex B) (fieldBytes s B))).getD j 0) ord p =
      refWriteBit (winRead s) ord B.toNat (sint s.count).toNat s.wdata p := by
  have hW := isWidth_widthBits s.params w
  have hn : (sint s.count).toNat ≤ widthBits s.params w := by have := h.countWidth; omega
  have e := byteIndex_subOffset B
  have ho := subOffset_le B
  have hs := spanLength_spec (subOffset B) (sint s.count).toNat ho
  have hn0 : 0 < (sint s.count).toNat := by
    by_contra hc
    have h0 : fieldBytes s B = 0 := hs.1 (by omega)
    omega
  have hst : (stageBytes s (byteIndex B) (fieldBytes s B)).length = fieldBytes s B := by simp
  have hq := streamBit_fieldWrite ord hW ho hn (trunc s.wdata (sint s.count).toNat)
    (stageBytes s (byteIndex B) (fieldBytes s B)) (p := p - 8 * byteIndex B)
    (by rw [hst]; exact hs.2.2.1 hn0) (by rw [hst]; omega) (by rw [hst]; exact hs.2.2.2)
  rw [streamBit_eq]
  have h3 : (p - 8 * byteIndex B) / 8 = j := by omega
  have h4 : streamPlace ord (p - 8 * byteIndex B) % 8 = streamPlace ord p % 8 := by
    cases ord <;> simp only [streamPlace, msbPlace] <;> omega
  rw [streamBit_eq, h3, h4] at hq
  rw [hq]
  unfold refWriteBit
  rw [streamBit_stageBytes s _ ord (by omega), show 8 * byteIndex B + (p - 8 * byteIndex B) = p by omega]
  by_cases hin : B.toNat ≤ p ∧ p < B.toNat + (sint s.count).toNat
  · rw [if_pos hin, if_pos (by omega)]
    rw [show p - 8 * byteIndex B - subOffset B = p - B.toNat by omega]
    exact getLsbD_trunc_of_lt (fieldWeight_lt (by omega))
  · rw [if_neg hin, if_neg (by omega)]

/-- R151: the stream bits of the span after a legal field write. -/
theorem FieldLegal.streamBit_writeBack {s : State} {w : WidthClass} {B : Int}
    (h : FieldLegal s w B) (ord : Order) (hm : s.mem.wf = true)
    (hk : fieldBytes s B ≤ s.params.addrSpace) {p : Nat} (h1 : byteIndex B ≤ p / 8)
    (h2 : p / 8 < byteIndex B + fieldBytes s B) :
    streamBit (heldByte (writeBack s (byteIndex B)
      (fieldWrite ord (widthBits s.params w) (subOffset B) (trunc s.wdata (sint s.count).toNat)
        (sint s.count).toNat (stageBytes s (byteIndex B) (fieldBytes s B))))) ord p =
      refWriteBit (winRead s) ord B.toNat (sint s.count).toNat s.wdata p := by
  have hlen := length_merged s w B ord (trunc s.wdata (sint s.count).toNat)
  have hj : p / 8 = byteIndex B + (p / 8 - byteIndex B) := by omega
  rw [← h.streamBit_merged ord hj (by omega), streamBit_eq, streamBit_eq]
  conv_lhs => rw [hj]
  rw [heldByte_writeBack hm (by rw [hlen]; exact hk) (by rw [hlen]; omega)]

/-- A scalar read faults in its validation or reads (R173). -/
theorem readScalar_cases (w : WidthClass) (g : Sign) (ord : Order) (s : State) :
    (¬ ScalarLegal s w ∧ readScalar w g ord s = raise s .outOfRange) ∨
      (ScalarLegal s w ∧ readScalar w g ord s = succeed (s.setRdata
        (present g (widthBits s.params w) (sint s.count).toNat
          ((maskRead ord (scalarOperand s (widthBits s.params w)) (sint s.offset).toNat
            (sint s.count).toNat).setWidth 64)))) := by
  unfold readScalar
  dsimp only
  cases hc : checkScalar (sint s.offset) (sint s.count) (widthBits s.params w) with
  | some c =>
    refine .inl ⟨fun hl => ?_, by rw [checkScalar_eq_some hc]⟩
    rw [checkScalar_eq_none.mpr hl] at hc
    cases hc
  | none => exact .inr ⟨checkScalar_eq_none.mp hc, rfl⟩

/-- A scalar write faults in its validation or writes (R233). -/
theorem writeScalar_cases (w : WidthClass) (ord : Order) (s : State) :
    (¬ ScalarLegal s w ∧ writeScalar w ord s = raise s .outOfRange) ∨
      (ScalarLegal s w ∧ writeScalar w ord s = succeed (s.setScalar
        (replaceScalar s.scalar (widthBits s.params w)
          (maskWrite ord (scalarOperand s (widthBits s.params w)) (sint s.offset).toNat
            ((trunc s.wdata (sint s.count).toNat).setWidth (widthBits s.params w))
            (sint s.count).toNat)))) := by
  unfold writeScalar
  dsimp only
  cases hc : checkScalar (sint s.offset) (sint s.count) (widthBits s.params w) with
  | some c =>
    refine .inl ⟨fun hl => ?_, by rw [checkScalar_eq_some hc]⟩
    rw [checkScalar_eq_none.mpr hl] at hc
    cases hc
  | none => exact .inr ⟨checkScalar_eq_none.mp hc, rfl⟩

/-- A bit read faults in its validation, faults at the port, or reads (R291, R292). -/
theorem readBitAt_cases (ord : Order) (B : Int) (s : State) :
    (∃ c, indexBit s B = some c ∧ readBitAt ord B s = raise s c) ∨
      (BitLegal s B ∧ winAddr s (byteIndex B) ∈ s.port.readErrs ∧
        readBitAt ord B s = raise s .busError) ∨
      (BitLegal s B ∧ winAddr s (byteIndex B) ∉ s.port.readErrs ∧
        readBitAt ord B s = succeed (s.setRdata
          (((winRead s (byteIndex B) >>> bitInByte ord (subOffset B)) &&& 1).setWidth 64))) := by
  unfold readBitAt
  cases hc : indexBit s B with
  | some c => exact .inl ⟨c, rfl, rfl⟩
  | none =>
    have hl := indexBit_eq_none.mp hc
    right
    dsimp only
    by_cases hp : winAddr s (byteIndex B) ∈ s.port.readErrs
    · exact .inl ⟨hl, hp, if_pos (by simpa [readErrs] using hp)⟩
    · exact .inr ⟨hl, hp, if_neg (by simpa [readErrs] using hp)⟩

/-- A bit write faults in its validation, faults at the port, or writes (R293, R294). -/
theorem writeBitAt_cases (ord : Order) (B : Int) (s : State) :
    (∃ c, indexBit s B = some c ∧ writeBitAt ord B s = raise s c) ∨
      (BitLegal s B ∧ writeErrs s [winAddr s (byteIndex B)] = true ∧
        writeBitAt ord B s = raise (scramble s [winAddr s (byteIndex B)]) .busError) ∨
      (BitLegal s B ∧ PortWrites s [winAddr s (byteIndex B)] ∧
        writeBitAt ord B s = succeed (writeBack s (byteIndex B)
          [(winRead s (byteIndex B) &&& ~~~((1 : Byte) <<< bitInByte ord (subOffset B))) |||
            ((BitVec.ofBool (wdataBit s)).setWidth 8 <<< bitInByte ord (subOffset B))])) := by
  unfold writeBitAt
  cases hc : indexBit s B with
  | some c => exact .inl ⟨c, rfl, rfl⟩
  | none =>
    have hl := indexBit_eq_none.mp hc
    right
    dsimp only
    by_cases hp : writeErrs s [winAddr s (byteIndex B)] = true
    · exact .inl ⟨hl, hp, if_pos hp⟩
    · exact .inr ⟨hl, writeErrs_eq_false.mp (by simpa using hp), if_neg hp⟩

/-- A seek faults when no window is bound and assigns POS when one is (R349). -/
theorem seekTo_cases (g : Origin) (s : State) :
    (s.bound = false ∧ seekTo g s = raise s .nullBuffer) ∨
      (s.bound = true ∧ seekTo g s = succeed (s.setPos (seekTarget g s))) := by
  unfold seekTo
  cases hb : s.bound with
  | false => exact .inl ⟨rfl, rfl⟩
  | true => exact .inr ⟨rfl, rfl⟩

/-- BIND faults on too long a request and binds on any other (R370). -/
theorem bindWindow_cases (s : State) :
    (Config.maxLen ≤ s.wlenReq.toNat ∧ bindWindow s = raise s .size) ∨
      (s.wlenReq.toNat < Config.maxLen ∧
        bindWindow s = succeed ((s.setWindow (bindBase s) s.wlenReq).setPos 0)) := by
  unfold bindWindow
  by_cases h : Config.maxLen ≤ s.wlenReq.toNat
  · exact .inl ⟨h, if_pos h⟩
  · exact .inr ⟨by omega, if_neg h⟩

/-- The advance of a cursor command (R300). -/
theorem advance_of_ok {s : State} (n : Word32) (h : s.err = .ok) :
    advance n s = s.setPos (s.pos + n) := if_pos h

theorem advance_of_fault {s : State} (n : Word32) (h : s.err ≠ .ok) : advance n s = s := if_neg h

end Sys2Proof.Machine
end

