-- ==== Sys2Proof/Laws/Commute.lean ====
section
/-! SUPPORT. What the shared operations read: an operation on a state with other fields overwritten is the
operation on the state itself, overwritten after it (30_encoding.md R112). `f` overwrites fields that the
operation neither reads nor writes. -/

namespace Sys2Proof.Machine

/-- Two states have the same window, seen through the same port. -/
structure SameWindow (s t : State) : Prop where
  params : t.params = s.params
  bound : t.bound = s.bound
  winBase : t.winBase = s.winBase
  winLen : t.winLen = s.winLen
  mem : t.mem = s.mem
  port : t.port = s.port
  raced : t.raced = s.raced
  freeCount : t.freeCount = s.freeCount

namespace SameWindow

variable {s t : State} (h : SameWindow s t)

include h

theorem winAddr_eq (i : Nat) : winAddr t i = winAddr s i := by
  simp [winAddr, h.params, h.winBase]

theorem winRead_eq : winRead t = winRead s := by
  funext i
  simp [winRead, heldByte, h.winAddr_eq, h.mem, h.raced, h.freeCount]

theorem spanAddrs_eq (a k : Nat) : spanAddrs t a k = spanAddrs s a k := by
  simp [spanAddrs, h.winAddr_eq]

theorem stageBytes_eq (a k : Nat) : stageBytes t a k = stageBytes s a k := by
  simp [stageBytes, h.winRead_eq]

theorem backCells_eq (a : Nat) (bytes : List Byte) : backCells t a bytes = backCells s a bytes := by
  simp [backCells, h.spanAddrs_eq]

theorem checkWindow_eq (B n : Int) (W : Nat) : checkWindow t B n W = checkWindow s B n W := by
  simp [checkWindow, h.bound, h.winLen]

theorem indexBit_eq (B : Int) : indexBit t B = indexBit s B := by
  simp [indexBit, h.bound, h.winLen]

theorem readErrs_eq (addrs : List Nat) : readErrs t addrs = readErrs s addrs := by
  simp [readErrs, h.port]

theorem writeErrs_eq (addrs : List Nat) : writeErrs t addrs = writeErrs s addrs := by
  simp [writeErrs, readErrs, h.port]

end SameWindow

theorem readField_map {f : State → State} {s : State} (h : SameWindow s (f s))
    (hn : (f s).count = s.count) (hr : ∀ c, raise (f s) c = f (raise s c))
    (hs : ∀ v, succeed ((f s).setRdata v) = f (succeed (s.setRdata v)))
    (w : WidthClass) (g : Sign) (ord : Order) (B : Int) :
    readField w g ord B (f s) = f (readField w g ord B s) := by
  simp only [readField, h.checkWindow_eq, h.readErrs_eq, h.spanAddrs_eq, h.stageBytes_eq, h.params,
    hn, hr, hs]
  split
  · rfl
  · split <;> rfl

theorem readBitAt_map {f : State → State} {s : State} (h : SameWindow s (f s))
    (hr : ∀ c, raise (f s) c = f (raise s c))
    (hs : ∀ v, succeed ((f s).setRdata v) = f (succeed (s.setRdata v))) (ord : Order) (B : Int) :
    readBitAt ord B (f s) = f (readBitAt ord B s) := by
  simp only [readBitAt, h.indexBit_eq, h.readErrs_eq, h.winAddr_eq, h.winRead_eq, hr, hs]
  split
  · rfl
  · split <;> rfl

theorem writeField_map {f : State → State} {s : State} (h : SameWindow s (f s))
    (hn : (f s).count = s.count) (hd : (f s).wdata = s.wdata)
    (hr : ∀ c, raise (f s) c = f (raise s c))
    (he : ∀ addrs, raise (scramble (f s) addrs) .busError = f (raise (scramble s addrs) .busError))
    (hs : ∀ a bytes, succeed (writeBack (f s) a bytes) = f (succeed (writeBack s a bytes)))
    (w : WidthClass) (ord : Order) (B : Int) :
    writeField w ord B (f s) = f (writeField w ord B s) := by
  simp only [writeField, h.checkWindow_eq, h.writeErrs_eq, h.spanAddrs_eq, h.stageBytes_eq, h.params,
    hn, hd, hr, he, hs]
  split
  · rfl
  · split <;> rfl

theorem writeBitAt_map {f : State → State} {s : State} (h : SameWindow s (f s))
    (hd : (f s).wdata.getLsbD 0 = s.wdata.getLsbD 0) (hr : ∀ c, raise (f s) c = f (raise s c))
    (he : ∀ addrs, raise (scramble (f s) addrs) .busError = f (raise (scramble s addrs) .busError))
    (hs : ∀ a bytes, succeed (writeBack (f s) a bytes) = f (succeed (writeBack s a bytes)))
    (ord : Order) (B : Int) :
    writeBitAt ord B (f s) = f (writeBitAt ord B s) := by
  simp only [writeBitAt, wdataBit, h.indexBit_eq, h.writeErrs_eq, h.winAddr_eq, h.winRead_eq, hd, hr,
    he, hs]
  split
  · rfl
  · split <;> rfl

/-- The write-back on a state with other fields overwritten. -/
theorem writeBack_map {f : State → State} {s : State} (h : SameWindow s (f s))
    (hc : (f s).freeCount = s.freeCount)
    (hm : ∀ m n, { f s with mem := m, freeCount := n } = f { s with mem := m, freeCount := n })
    (a : Nat) (bytes : List Byte) : writeBack (f s) a bytes = f (writeBack s a bytes) := by
  have hm0 : ∀ m, { f s with mem := m } = f { s with mem := m } := fun m => by
    have := hm m s.freeCount
    rw [← hc] at this
    rw [show ({ f s with mem := m } : State) = { f s with mem := m, freeCount := (f s).freeCount } from rfl,
      this, hc]
  simp only [writeBack, h.params, h.mem, h.backCells_eq, hc]
  split
  · exact hm0 _
  · simp only [State.setMem, State.useFree, hc]
    exact hm _ _

/-- The free bytes on a state with other fields overwritten. -/
theorem scramble_map {f : State → State} {s : State} (h : SameWindow s (f s))
    (hc : (f s).freeCount = s.freeCount)
    (hm : ∀ m n, { f s with mem := m, freeCount := n } = f { s with mem := m, freeCount := n })
    (addrs : List Nat) : scramble (f s) addrs = f (scramble s addrs) := by
  simp only [scramble, State.setMem, State.useFree, h.mem, hc]
  exact hm _ _

/-- No command reads BUSY or writes it (R40, R54). -/
theorem exec_setBusy (i : Instr) (s : State) (b : Bool) :
    exec i (s.setBusy b) = mapNext (·.setBusy b) (exec i s) := by
  have sw : SameWindow s (s.setBusy b) := ⟨rfl, rfl, rfl, rfl, rfl, rfl, rfl, rfl⟩
  have wfm : ∀ w o B, writeField w o B (s.setBusy b) = (writeField w o B s).setBusy b := by
    intro w o B
    refine writeField_map (f := (·.setBusy b)) sw rfl rfl (fun _ => rfl) (fun a => ?_)
      (fun a bs => ?_) w o B
    · rw [scramble_map (f := (·.setBusy b)) sw rfl (fun _ _ => rfl)]; rfl
    · rw [writeBack_map (f := (·.setBusy b)) sw rfl (fun _ _ => rfl)]; rfl
  have wbm : ∀ o B, writeBitAt o B (s.setBusy b) = (writeBitAt o B s).setBusy b := by
    intro o B
    refine writeBitAt_map (f := (·.setBusy b)) sw rfl (fun _ => rfl) (fun a => ?_)
      (fun a bs => ?_) o B
    · rw [scramble_map (f := (·.setBusy b)) sw rfl (fun _ _ => rfl)]; rfl
    · rw [writeBack_map (f := (·.setBusy b)) sw rfl (fun _ _ => rfl)]; rfl
  have rfm : ∀ w g o B, readField w g o B (s.setBusy b) = (readField w g o B s).setBusy b :=
    fun w g o B => readField_map (f := (·.setBusy b)) sw rfl (fun _ => rfl)
      (fun _ => rfl) w g o B
  have rbm : ∀ o B, readBitAt o B (s.setBusy b) = (readBitAt o B s).setBusy b :=
    fun o B => readBitAt_map (f := (·.setBusy b)) sw (fun _ => rfl) (fun _ => rfl)
      o B
  have adv : ∀ n (t : State), advance n (t.setBusy b) = (advance n t).setBusy b := by
    intro n t
    by_cases h : t.err = .ok
    · rw [advance_of_ok _ h, advance_of_ok n (s := t.setBusy b) h]; rfl
    · rw [advance_of_fault _ h, advance_of_fault n (s := t.setBusy b) h]
  rcases instr_kinds i with ⟨w, g, o, k, rfl⟩ | ⟨w, g, o, k, rfl⟩ | ⟨o, rfl⟩ | ⟨o, rfl⟩ |
    ⟨w, g, o, rfl⟩ | ⟨w, g, o, rfl⟩ | ⟨o, rfl⟩ | ⟨o, rfl⟩ | ⟨g, rfl⟩ | rfl
  · cases k
    · rw [exec_readWindow, exec_readWindow, State.setBusy_offset, rfm]; rfl
    · rw [exec_readScalar, exec_readScalar]
      simp only [mapNext]; congr 1
      unfold readScalar scalarOperand
      dsimp only [State.setBusy_params, State.setBusy_offset, State.setBusy_count,
        State.setBusy_scalar]
      cases checkScalar (sint s.offset) (sint s.count) (widthBits s.params w) <;> rfl
  · cases k
    · rw [exec_writeWindow, exec_writeWindow, State.setBusy_offset, wfm]; rfl
    · rw [exec_writeScalar, exec_writeScalar]
      simp only [mapNext]; congr 1
      unfold writeScalar scalarOperand
      dsimp only [State.setBusy_params, State.setBusy_offset, State.setBusy_count,
        State.setBusy_scalar, State.setBusy_wdata]
      cases checkScalar (sint s.offset) (sint s.count) (widthBits s.params w) <;> rfl
  · rw [exec_readBit, exec_readBit, State.setBusy_offset, rbm]; rfl
  · rw [exec_writeBit, exec_writeBit, State.setBusy_offset, wbm]; rfl
  · rw [exec_cursorRead, exec_cursorRead]
    unfold cursorReadField
    rw [State.setBusy_pos, State.setBusy_count, rfm, adv]; rfl
  · rw [exec_cursorWrite, exec_cursorWrite]
    unfold cursorWriteField
    rw [State.setBusy_pos, State.setBusy_count, wfm, adv]; rfl
  · rw [exec_cursorReadBit, exec_cursorReadBit]
    unfold cursorReadBitAt
    rw [State.setBusy_pos, rbm, adv]; rfl
  · rw [exec_cursorWriteBit, exec_cursorWriteBit]
    unfold cursorWriteBitAt
    rw [State.setBusy_pos, wbm, adv]; rfl
  · rw [exec_seek, exec_seek]; simp only [mapNext]; congr 1
    unfold seekTo
    rw [State.setBusy_bound]
    by_cases h : s.bound = true
    · rw [if_pos h, if_pos h]; cases g <;> rfl
    · rw [if_neg h, if_neg h]; rfl
  · rw [exec_bind, exec_bind]; simp only [mapNext]; congr 1
    unfold bindWindow
    rw [State.setBusy_wlenReq]
    by_cases h : Config.maxLen ≤ s.wlenReq.toNat
    · rw [if_pos h, if_pos h]; rfl
    · rw [if_neg h, if_neg h]; rfl

end Sys2Proof.Machine
end

