-- ==== Sys2Proof/Laws/HostPort.lean ====
section
/-! SUPPORT. What the end of a race, an abandoned command and a command's span are, said once. -/

namespace Sys2Proof.Machine

/-- The end of a race (R92(d)): no race is on, free values are used, and only the raced bytes change. -/
theorem settleRace_eq (reads : Nat) (addrs : List Nat) (t : State) :
    ∃ m f, settleRace reads addrs t = { t with mem := m, raced := [], freeCount := f } ∧
      KeepsOutside t addrs m := by
  obtain ⟨m, e, hK⟩ := scramble_eq ((t.setRaced []).useFree reads) addrs
  exact ⟨m, _, e, hK.outside, hK.canonical, hK.listed⟩

/-- An abandoned command (R421): the reset values, with only bytes of its span changed. -/
theorem abandon_eq (c : Word32) (s : State) :
    ∃ m f, abandon c s = { State.resetWith s.params with
        mem := m, freeCount := f, port := s.port, hostQueue := s.hostQueue, hostData := s.hostData } ∧
      KeepsOutside s (commandSpan c s) m ∧ (commandSpan c s = [] → m = s.mem) := by
  obtain ⟨m, e, hK⟩ := scramble_eq s (commandSpan c s)
  refine ⟨m, _, by unfold abandon blockReset; rw [e], hK, fun h => ?_⟩
  have e0 : scramble s (commandSpan c s) = s := by rw [h]; rfl
  exact (congrArg State.mem (e0.symm.trans e)).symm

/-- A legal multi-bit window command's span is its field's addresses (R21, R84). -/
theorem FieldLegal.fieldSpan_eq {s : State} {w : WidthClass} {B : Int} (h : FieldLegal s w B) :
    fieldSpan s w B = fieldAddrs s B := by
  unfold fieldSpan
  rw [checkWindow_eq_none.mpr h]
  rfl

/-- A legal single-bit command's span is its one address (R84). -/
theorem BitLegal.bitSpan_eq {s : State} {B : Int} (h : BitLegal s B) :
    bitSpan s B = [winAddr s (byteIndex B)] := by
  unfold bitSpan
  rw [indexBit_eq_none.mpr h]

end Sys2Proof.Machine
end

