-- ==== Sys2Proof/Laws/PerInstr.lean ====
section
/-! SUPPORT. One lemma per command for the statements made for all commands. -/

namespace Sys2Proof.Laws.EncodeDecode

/-- The word of a command has that command's fields, and they are legal (R109, R118). -/
@[reducible] def Statement (i : Instr) : Prop := Fields.ofWord (encode i) = i.fields ∧ i.wf = true

theorem rdU8Lsb : Statement .rdU8Lsb := by decide
theorem rdU8LsbS : Statement .rdU8LsbS := by decide
theorem rdU8Msb : Statement .rdU8Msb := by decide
theorem rdU8MsbS : Statement .rdU8MsbS := by decide
theorem rdI8Lsb : Statement .rdI8Lsb := by decide
theorem rdI8LsbS : Statement .rdI8LsbS := by decide
theorem rdI8Msb : Statement .rdI8Msb := by decide
theorem rdI8MsbS : Statement .rdI8MsbS := by decide
theorem rdU16Lsb : Statement .rdU16Lsb := by decide
theorem rdU16LsbS : Statement .rdU16LsbS := by decide
theorem rdU16Msb : Statement .rdU16Msb := by decide
theorem rdU16MsbS : Statement .rdU16MsbS := by decide
theorem rdI16Lsb : Statement .rdI16Lsb := by decide
theorem rdI16LsbS : Statement .rdI16LsbS := by decide
theorem rdI16Msb : Statement .rdI16Msb := by decide
theorem rdI16MsbS : Statement .rdI16MsbS := by decide
theorem rdU32Lsb : Statement .rdU32Lsb := by decide
theorem rdU32LsbS : Statement .rdU32LsbS := by decide
theorem rdU32Msb : Statement .rdU32Msb := by decide
theorem rdU32MsbS : Statement .rdU32MsbS := by decide
theorem rdI32Lsb : Statement .rdI32Lsb := by decide
theorem rdI32LsbS : Statement .rdI32LsbS := by decide
theorem rdI32Msb : Statement .rdI32Msb := by decide
theorem rdI32MsbS : Statement .rdI32MsbS := by decide
theorem rdU64Lsb : Statement .rdU64Lsb := by decide
theorem rdU64LsbS : Statement .rdU64LsbS := by decide
theorem rdU64Msb : Statement .rdU64Msb := by decide
theorem rdU64MsbS : Statement .rdU64MsbS := by decide
theorem rdI64Lsb : Statement .rdI64Lsb := by decide
theorem rdI64LsbS : Statement .rdI64LsbS := by decide
theorem rdI64Msb : Statement .rdI64Msb := by decide
theorem rdI64MsbS : Statement .rdI64MsbS := by decide
theorem rdUPLsb : Statement .rdUPLsb := by decide
theorem rdUPLsbS : Statement .rdUPLsbS := by decide
theorem rdUPMsb : Statement .rdUPMsb := by decide
theorem rdUPMsbS : Statement .rdUPMsbS := by decide
theorem rdIPLsb : Statement .rdIPLsb := by decide
theorem rdIPLsbS : Statement .rdIPLsbS := by decide
theorem rdIPMsb : Statement .rdIPMsb := by decide
theorem rdIPMsbS : Statement .rdIPMsbS := by decide
theorem wrU8Lsb : Statement .wrU8Lsb := by decide
theorem wrU8LsbS : Statement .wrU8LsbS := by decide
theorem wrU8Msb : Statement .wrU8Msb := by decide
theorem wrU8MsbS : Statement .wrU8MsbS := by decide
theorem wrI8Lsb : Statement .wrI8Lsb := by decide
theorem wrI8LsbS : Statement .wrI8LsbS := by decide
theorem wrI8Msb : Statement .wrI8Msb := by decide
theorem wrI8MsbS : Statement .wrI8MsbS := by decide
theorem wrU16Lsb : Statement .wrU16Lsb := by decide
theorem wrU16LsbS : Statement .wrU16LsbS := by decide
theorem wrU16Msb : Statement .wrU16Msb := by decide
theorem wrU16MsbS : Statement .wrU16MsbS := by decide
theorem wrI16Lsb : Statement .wrI16Lsb := by decide
theorem wrI16LsbS : Statement .wrI16LsbS := by decide
theorem wrI16Msb : Statement .wrI16Msb := by decide
theorem wrI16MsbS : Statement .wrI16MsbS := by decide
theorem wrU32Lsb : Statement .wrU32Lsb := by decide
theorem wrU32LsbS : Statement .wrU32LsbS := by decide
theorem wrU32Msb : Statement .wrU32Msb := by decide
theorem wrU32MsbS : Statement .wrU32MsbS := by decide
theorem wrI32Lsb : Statement .wrI32Lsb := by decide
theorem wrI32LsbS : Statement .wrI32LsbS := by decide
theorem wrI32Msb : Statement .wrI32Msb := by decide
theorem wrI32MsbS : Statement .wrI32MsbS := by decide
theorem wrU64Lsb : Statement .wrU64Lsb := by decide
theorem wrU64LsbS : Statement .wrU64LsbS := by decide
theorem wrU64Msb : Statement .wrU64Msb := by decide
theorem wrU64MsbS : Statement .wrU64MsbS := by decide
theorem wrI64Lsb : Statement .wrI64Lsb := by decide
theorem wrI64LsbS : Statement .wrI64LsbS := by decide
theorem wrI64Msb : Statement .wrI64Msb := by decide
theorem wrI64MsbS : Statement .wrI64MsbS := by decide
theorem wrUPLsb : Statement .wrUPLsb := by decide
theorem wrUPLsbS : Statement .wrUPLsbS := by decide
theorem wrUPMsb : Statement .wrUPMsb := by decide
theorem wrUPMsbS : Statement .wrUPMsbS := by decide
theorem wrIPLsb : Statement .wrIPLsb := by decide
theorem wrIPLsbS : Statement .wrIPLsbS := by decide
theorem wrIPMsb : Statement .wrIPMsb := by decide
theorem wrIPMsbS : Statement .wrIPMsbS := by decide
theorem rdbitLsb : Statement .rdbitLsb := by decide
theorem rdbitMsb : Statement .rdbitMsb := by decide
theorem wrbitLsb : Statement .wrbitLsb := by decide
theorem wrbitMsb : Statement .wrbitMsb := by decide
theorem crdU8Lsb : Statement .crdU8Lsb := by decide
theorem crdU8Msb : Statement .crdU8Msb := by decide
theorem crdI8Lsb : Statement .crdI8Lsb := by decide
theorem crdI8Msb : Statement .crdI8Msb := by decide
theorem crdU16Lsb : Statement .crdU16Lsb := by decide
theorem crdU16Msb : Statement .crdU16Msb := by decide
theorem crdI16Lsb : Statement .crdI16Lsb := by decide
theorem crdI16Msb : Statement .crdI16Msb := by decide
theorem crdU32Lsb : Statement .crdU32Lsb := by decide
theorem crdU32Msb : Statement .crdU32Msb := by decide
theorem crdI32Lsb : Statement .crdI32Lsb := by decide
theorem crdI32Msb : Statement .crdI32Msb := by decide
theorem crdU64Lsb : Statement .crdU64Lsb := by decide
theorem crdU64Msb : Statement .crdU64Msb := by decide
theorem crdI64Lsb : Statement .crdI64Lsb := by decide
theorem crdI64Msb : Statement .crdI64Msb := by decide
theorem crdUPLsb : Statement .crdUPLsb := by decide
theorem crdUPMsb : Statement .crdUPMsb := by decide
theorem crdIPLsb : Statement .crdIPLsb := by decide
theorem crdIPMsb : Statement .crdIPMsb := by decide
theorem cwrU8Lsb : Statement .cwrU8Lsb := by decide
theorem cwrU8Msb : Statement .cwrU8Msb := by decide
theorem cwrI8Lsb : Statement .cwrI8Lsb := by decide
theorem cwrI8Msb : Statement .cwrI8Msb := by decide
theorem cwrU16Lsb : Statement .cwrU16Lsb := by decide
theorem cwrU16Msb : Statement .cwrU16Msb := by decide
theorem cwrI16Lsb : Statement .cwrI16Lsb := by decide
theorem cwrI16Msb : Statement .cwrI16Msb := by decide
theorem cwrU32Lsb : Statement .cwrU32Lsb := by decide
theorem cwrU32Msb : Statement .cwrU32Msb := by decide
theorem cwrI32Lsb : Statement .cwrI32Lsb := by decide
theorem cwrI32Msb : Statement .cwrI32Msb := by decide
theorem cwrU64Lsb : Statement .cwrU64Lsb := by decide
theorem cwrU64Msb : Statement .cwrU64Msb := by decide
theorem cwrI64Lsb : Statement .cwrI64Lsb := by decide
theorem cwrI64Msb : Statement .cwrI64Msb := by decide
theorem cwrUPLsb : Statement .cwrUPLsb := by decide
theorem cwrUPMsb : Statement .cwrUPMsb := by decide
theorem cwrIPLsb : Statement .cwrIPLsb := by decide
theorem cwrIPMsb : Statement .cwrIPMsb := by decide
theorem crdbitLsb : Statement .crdbitLsb := by decide
theorem crdbitMsb : Statement .crdbitMsb := by decide
theorem cwrbitLsb : Statement .cwrbitLsb := by decide
theorem cwrbitMsb : Statement .cwrbitMsb := by decide
theorem seekBegin : Statement .seekBegin := by decide
theorem seekCur : Statement .seekCur := by decide
theorem seekEnd : Statement .seekEnd := by decide
theorem bind : Statement .bind := by decide

end Sys2Proof.Laws.EncodeDecode
end

