-- ==== Sys2Proof/Tests/Slice0.lean ====
section
/-! SUPPORT. Tests: ill-formed fields refused, every command's word decoded, the spec's own examples run
through one step each (expected values transcribed from the rules' Example lines and from
95_test_vectors.md), and for every statement with hypotheses a state that meets them. -/

namespace Sys2Proof.Tests

open Sys2Proof.Machine

-- One theorem at a time: many kernel evaluations at once ask for more threads than the memory limit admits.
set_option Elab.async false

/-! ## Ill-formed fields -/

/-- A legal word's fields, to be spoiled below: `RD.U8.LSB`. -/
def goodFields : Fields := ⟨1, 0, 0, 0, 0, 0, 0⟩

theorem test_wf_good : goodFields.wf = true := by decide

theorem test_wf_reserved_bits : ({ goodFields with rsv := 1 } : Fields).reservedClear = false ∧
    ({ goodFields with rsv := 1 } : Fields).wf = false := by decide

theorem test_wf_reserved_op : ({ goodFields with op := 0 } : Fields).opDefined = false ∧
    ({ goodFields with op := 11 } : Fields).opDefined = false ∧
    ({ goodFields with op := 11 } : Fields).wf = false := by decide

theorem test_wf_reserved_width : ({ goodFields with wid := 5 } : Fields).widDefined = false ∧
    ({ goodFields with wid := 5 } : Fields).wf = false := by decide

theorem test_wf_width_of_bit_command : ({ goodFields with op := 3, wid := 1 } : Fields).widSgnClear = false ∧
    ({ goodFields with op := 10, sgn := 1 } : Fields).widSgnClear = false ∧
    ({ goodFields with op := 3, wid := 1 } : Fields).wf = false := by decide

theorem test_wf_scalar_cursor : ({ goodFields with op := 5, src := 1 } : Fields).srcAllowed = false ∧
    ({ goodFields with op := 5, src := 1 } : Fields).wf = false := by decide

theorem test_wf_origin_of_read : ({ goodFields with org := 1 } : Fields).orgClear = false ∧
    ({ goodFields with org := 1 } : Fields).wf = false := by decide

theorem test_wf_reserved_origin : ({ goodFields with op := 9, org := 3 } : Fields).seekOrgDefined = false ∧
    ({ goodFields with op := 9, org := 3 } : Fields).wf = false := by decide

theorem test_wf_order_of_bind : ({ goodFields with op := 10, ord := 1 } : Fields).ordAllowed = false ∧
    ({ goodFields with op := 10, ord := 1 } : Fields).wf = false := by decide

/-! ## Decoding -/

/-- Each word, written out from the encodings of R101 to R107, decodes to its command. -/
theorem test_decode_rd_window : ∀ r ∈ ([
    (0x00000001, .rdU8Lsb), (0x00000011, .rdU8Msb), (0x00000101, .rdI8Lsb),
    (0x00000111, .rdI8Msb), (0x00000021, .rdU16Lsb), (0x00000031, .rdU16Msb),
    (0x00000121, .rdI16Lsb), (0x00000131, .rdI16Msb), (0x00000041, .rdU32Lsb),
    (0x00000051, .rdU32Msb), (0x00000141, .rdI32Lsb), (0x00000151, .rdI32Msb),
    (0x00000061, .rdU64Lsb), (0x00000071, .rdU64Msb), (0x00000161, .rdI64Lsb),
    (0x00000171, .rdI64Msb), (0x00000081, .rdUPLsb), (0x00000091, .rdUPMsb),
    (0x00000181, .rdIPLsb), (0x00000191, .rdIPMsb)] : List (Word32 × Instr)), decode r.1 = .ok r.2 := by
  decide +kernel

/-- Each word, written out from the encodings of R101 to R107, decodes to its command. -/
theorem test_decode_rd_scalar : ∀ r ∈ ([
    (0x00000201, .rdU8LsbS), (0x00000211, .rdU8MsbS), (0x00000301, .rdI8LsbS),
    (0x00000311, .rdI8MsbS), (0x00000221, .rdU16LsbS), (0x00000231, .rdU16MsbS),
    (0x00000321, .rdI16LsbS), (0x00000331, .rdI16MsbS), (0x00000241, .rdU32LsbS),
    (0x00000251, .rdU32MsbS), (0x00000341, .rdI32LsbS), (0x00000351, .rdI32MsbS),
    (0x00000261, .rdU64LsbS), (0x00000271, .rdU64MsbS), (0x00000361, .rdI64LsbS),
    (0x00000371, .rdI64MsbS), (0x00000281, .rdUPLsbS), (0x00000291, .rdUPMsbS),
    (0x00000381, .rdIPLsbS), (0x00000391, .rdIPMsbS)] : List (Word32 × Instr)), decode r.1 = .ok r.2 := by
  decide +kernel

/-- Each word, written out from the encodings of R101 to R107, decodes to its command. -/
theorem test_decode_wr_window : ∀ r ∈ ([
    (0x00000002, .wrU8Lsb), (0x00000012, .wrU8Msb), (0x00000102, .wrI8Lsb),
    (0x00000112, .wrI8Msb), (0x00000022, .wrU16Lsb), (0x00000032, .wrU16Msb),
    (0x00000122, .wrI16Lsb), (0x00000132, .wrI16Msb), (0x00000042, .wrU32Lsb),
    (0x00000052, .wrU32Msb), (0x00000142, .wrI32Lsb), (0x00000152, .wrI32Msb),
    (0x00000062, .wrU64Lsb), (0x00000072, .wrU64Msb), (0x00000162, .wrI64Lsb),
    (0x00000172, .wrI64Msb), (0x00000082, .wrUPLsb), (0x00000092, .wrUPMsb),
    (0x00000182, .wrIPLsb), (0x00000192, .wrIPMsb)] : List (Word32 × Instr)), decode r.1 = .ok r.2 := by
  decide +kernel

/-- Each word, written out from the encodings of R101 to R107, decodes to its command. -/
theorem test_decode_wr_scalar : ∀ r ∈ ([
    (0x00000202, .wrU8LsbS), (0x00000212, .wrU8MsbS), (0x00000302, .wrI8LsbS),
    (0x00000312, .wrI8MsbS), (0x00000222, .wrU16LsbS), (0x00000232, .wrU16MsbS),
    (0x00000322, .wrI16LsbS), (0x00000332, .wrI16MsbS), (0x00000242, .wrU32LsbS),
    (0x00000252, .wrU32MsbS), (0x00000342, .wrI32LsbS), (0x00000352, .wrI32MsbS),
    (0x00000262, .wrU64LsbS), (0x00000272, .wrU64MsbS), (0x00000362, .wrI64LsbS),
    (0x00000372, .wrI64MsbS), (0x00000282, .wrUPLsbS), (0x00000292, .wrUPMsbS),
    (0x00000382, .wrIPLsbS), (0x00000392, .wrIPMsbS)] : List (Word32 × Instr)), decode r.1 = .ok r.2 := by
  decide +kernel

/-- Each word, written out from the encodings of R101 to R107, decodes to its command. -/
theorem test_decode_crd : ∀ r ∈ ([
    (0x00000005, .crdU8Lsb), (0x00000015, .crdU8Msb), (0x00000105, .crdI8Lsb),
    (0x00000115, .crdI8Msb), (0x00000025, .crdU16Lsb), (0x00000035, .crdU16Msb),
    (0x00000125, .crdI16Lsb), (0x00000135, .crdI16Msb), (0x00000045, .crdU32Lsb),
    (0x00000055, .crdU32Msb), (0x00000145, .crdI32Lsb), (0x00000155, .crdI32Msb),
    (0x00000065, .crdU64Lsb), (0x00000075, .crdU64Msb), (0x00000165, .crdI64Lsb),
    (0x00000175, .crdI64Msb), (0x00000085, .crdUPLsb), (0x00000095, .crdUPMsb),
    (0x00000185, .crdIPLsb), (0x00000195, .crdIPMsb)] : List (Word32 × Instr)), decode r.1 = .ok r.2 := by
  decide +kernel

/-- Each word, written out from the encodings of R101 to R107, decodes to its command. -/
theorem test_decode_cwr : ∀ r ∈ ([
    (0x00000006, .cwrU8Lsb), (0x00000016, .cwrU8Msb), (0x00000106, .cwrI8Lsb),
    (0x00000116, .cwrI8Msb), (0x00000026, .cwrU16Lsb), (0x00000036, .cwrU16Msb),
    (0x00000126, .cwrI16Lsb), (0x00000136, .cwrI16Msb), (0x00000046, .cwrU32Lsb),
    (0x00000056, .cwrU32Msb), (0x00000146, .cwrI32Lsb), (0x00000156, .cwrI32Msb),
    (0x00000066, .cwrU64Lsb), (0x00000076, .cwrU64Msb), (0x00000166, .cwrI64Lsb),
    (0x00000176, .cwrI64Msb), (0x00000086, .cwrUPLsb), (0x00000096, .cwrUPMsb),
    (0x00000186, .cwrIPLsb), (0x00000196, .cwrIPMsb)] : List (Word32 × Instr)), decode r.1 = .ok r.2 := by
  decide +kernel

/-- Each word, written out from the encodings of R101 to R107, decodes to its command. -/
theorem test_decode_bit_seek_bind : ∀ r ∈ ([
    (0x00000003, .rdbitLsb), (0x00000013, .rdbitMsb), (0x00000004, .wrbitLsb),
    (0x00000014, .wrbitMsb), (0x00000007, .crdbitLsb), (0x00000017, .crdbitMsb),
    (0x00000008, .cwrbitLsb), (0x00000018, .cwrbitMsb), (0x00000009, .seekBegin),
    (0x00000409, .seekCur), (0x00000809, .seekEnd), (0x0000000A, .bind)] : List (Word32 × Instr)), decode r.1 = .ok r.2 := by
  decide +kernel

/-- The decoder names the first check a word fails (R110). -/
theorem test_decode_rejects : decode 0x00001001 = .error .reservedBitsSet ∧
    decode 0x0000000B = .error .reservedOp ∧ decode 0x000000A1 = .error .reservedWidth ∧
    decode 0x00000103 = .error .widthOrSignSet ∧ decode 0x00000205 = .error .sourceSet ∧
    decode 0x00000401 = .error .originSet ∧ decode 0x00000C09 = .error .reservedOrigin ∧
    decode 0x0000001A = .error .orderSet := by decide

/-- The word of `CRD.I16.MSB` from its fields' bits: OP 5, ORD 1, WID 001, SGN 1 (R101). -/
theorem test_decode_table_word : decodeTableWord 32 (5 + 1 * 16 + 1 * 32 + 1 * 256) = some .crdI16Msb := by
  decide

/-! ## The spec's examples -/

/-- The window `WIN` of 40_masking_core.md. -/
def winBytes : List Byte :=
  [0xCD, 0x0A, 0xA2, 0xF5, 0x3C, 0x96, 0x5A, 0xE1, 0x7B, 0x12, 0x84, 0xFF]

/-- The start state of 95_test_vectors.md: `WIN` at 0x1000, bound with WIN_LEN = 12. -/
def base (ptr64 : Bool) : State :=
  { State.resetWith { ptr64 := ptr64, addrWMinus1 := 31 } with
    bound := true, winBase := 0x1000, winLen := 12, rdata := 0x1111111111111111
    scalar := 0xF0E1D2C3B4A59687
    mem := Memory.writeAll [] ((List.range 12).map fun i => (0x1000 + i, winBytes.getD i 0)) }

/-- The state after one step that issues the command word `w`. -/
def run (w : Nat) (s : State) : Option State :=
  match step (s.withFetchWord 32 w) with
  | .next t => some t
  | _ => none

/-- The window bytes of a state. -/
def windowBytes (t : State) : List Byte := (List.range 12).map (winRead t)

def readsTo (ptr64 : Bool) (r : Nat × Word32 × Word32 × Word64) : Bool :=
  (run r.1 { base ptr64 with offset := r.2.1, count := r.2.2.1 }).any fun t =>
    t.rdata == r.2.2.2 && t.err == .ok && windowBytes t == winBytes

def writesTo (ptr64 : Bool) (r : Nat × Word32 × Word32 × List Byte) : Bool :=
  (run r.1 { base ptr64 with
      offset := r.2.1, count := r.2.2.1, wdata := 0x0123456789ABCDEF }).any fun t =>
    windowBytes t == r.2.2.2 && t.err == .ok

def scalarTo (ptr64 : Bool) (r : Nat × Word32 × Word32 × Word64) : Bool :=
  (run r.1 { base ptr64 with
      offset := r.2.1, count := r.2.2.1, wdata := 0x0123456789ABCDEF }).any fun t =>
    t.scalar == r.2.2.2 && t.err == .ok

def cursorReadsTo (ptr64 : Bool) (r : Nat × Word32 × Word32 × Word64 × Word32) : Bool :=
  (run r.1 { base ptr64 with pos := r.2.1, count := r.2.2.1 }).any fun t =>
    t.rdata == r.2.2.2.1 && t.pos == r.2.2.2.2 && t.err == .ok

def cursorWritesTo (ptr64 : Bool) (r : Nat × Word32 × Word32 × List Byte × Word32) : Bool :=
  (run r.1 { base ptr64 with
      pos := r.2.1, count := r.2.2.1, wdata := 0x0123456789ABCDEF }).any fun t =>
    windowBytes t == r.2.2.2.1 && t.pos == r.2.2.2.2 && t.err == .ok

def bitTo (r : Nat × Word32 × Word64 × List Byte) : Bool :=
  (run r.1 { base true with offset := r.2.1, wdata := r.2.2.1 }).any fun t =>
    windowBytes t == r.2.2.2 && t.err == .ok

def cursorBitTo (r : Nat × Word32 × Word64 × List Byte × Word32) : Bool :=
  (run r.1 { base true with pos := r.2.1, wdata := r.2.2.1 }).any fun t =>
    windowBytes t == r.2.2.2.1 && t.pos == r.2.2.2.2 && t.err == .ok

def seeksTo (r : Nat × Word32 × Word32 × Word32) : Bool :=
  (run r.1 { base true with pos := r.2.1, offset := r.2.2.1 }).any fun t =>
    t.pos == r.2.2.2 && t.err == .ok

def faultsTo (r : Nat × Word32 × Word32 × ResultCode) : Bool :=
  (run r.1 { base true with offset := r.2.1, pos := r.2.1, count := r.2.2.1 }).any fun t =>
    t.err == r.2.2.2 && t.sticky && t.rdata == 0x1111111111111111 && t.pos == r.2.1

/-- The examples of R180 to R219, window forms. -/
theorem test_read_window : ([
    (0x00000001, 0x3, 0x8, 0x59),
    (0x00000011, 0x3, 0x8, 0x68),
    (0x00000101, 0x3, 0x8, 0x59),
    (0x00000111, 0x3, 0x8, 0x68),
    (0x00000021, 0x3, 0x10, 0x4159),
    (0x00000031, 0x3, 0x10, 0x6855),
    (0x00000121, 0x3, 0x10, 0x4159),
    (0x00000131, 0x3, 0x10, 0x6855),
    (0x00000041, 0x3, 0x20, 0x9EB44159),
    (0x00000051, 0x3, 0x20, 0x685517A9),
    (0x00000141, 0x3, 0x20, 0xFFFFFFFF9EB44159),
    (0x00000151, 0x3, 0x20, 0x685517A9),
    (0x00000061, 0x3, 0x40, 0x7C2B52C79EB44159),
    (0x00000071, 0x3, 0x40, 0x685517A9E4B2D70B),
    (0x00000161, 0x3, 0x40, 0x7C2B52C79EB44159),
    (0x00000171, 0x3, 0x40, 0x685517A9E4B2D70B),
    (0x00000081, 0x3, 0x40, 0x7C2B52C79EB44159),
    (0x00000091, 0x3, 0x40, 0x685517A9E4B2D70B),
    (0x00000181, 0x3, 0x40, 0x7C2B52C79EB44159),
    (0x00000191, 0x3, 0x40, 0x685517A9E4B2D70B)] : List (Nat × Word32 × Word32 × Word64)).all (readsTo true) = true := by
  decide +kernel

/-- The examples of R180 to R219, scalar forms. -/
theorem test_read_scalar : ([
    (0x00000201, 0x4, 0x4, 0x8),
    (0x00000211, 0x4, 0x4, 0x7),
    (0x00000301, 0x4, 0x4, 0xFFFFFFFFFFFFFFF8),
    (0x00000311, 0x4, 0x4, 0x7),
    (0x00000221, 0x4, 0xC, 0x968),
    (0x00000231, 0x4, 0xC, 0x796),
    (0x00000321, 0x4, 0xC, 0xFFFFFFFFFFFFF968),
    (0x00000331, 0x4, 0xC, 0x796),
    (0x00000241, 0x4, 0x1C, 0xB4A5968),
    (0x00000251, 0x4, 0x1C, 0x796A5B4),
    (0x00000341, 0x4, 0x1C, 0xFFFFFFFFFB4A5968),
    (0x00000351, 0x4, 0x1C, 0x796A5B4),
    (0x00000261, 0x4, 0x3C, 0xF0E1D2C3B4A5968),
    (0x00000271, 0x4, 0x3C, 0x796A5B4C3D2E1F0),
    (0x00000361, 0x4, 0x3C, 0xFF0E1D2C3B4A5968),
    (0x00000371, 0x4, 0x3C, 0x796A5B4C3D2E1F0),
    (0x00000281, 0x4, 0x3C, 0xF0E1D2C3B4A5968),
    (0x00000291, 0x4, 0x3C, 0x796A5B4C3D2E1F0),
    (0x00000381, 0x4, 0x3C, 0xFF0E1D2C3B4A5968),
    (0x00000391, 0x4, 0x3C, 0x796A5B4C3D2E1F0)] : List (Nat × Word32 × Word32 × Word64)).all (readsTo true) = true := by
  decide +kernel

/-- The examples of R240 to R279, window forms. -/
theorem test_write_window : ([
    (0x00000002, 0x3, 0x8, [0x7D, 0x0F, 0xA2, 0xF5, 0x3C, 0x96, 0x5A, 0xE1, 0x7B, 0x12, 0x84, 0xFF]),
    (0x00000012, 0x3, 0x8, [0xDD, 0xEA, 0xA2, 0xF5, 0x3C, 0x96, 0x5A, 0xE1, 0x7B, 0x12, 0x84, 0xFF]),
    (0x00000102, 0x3, 0x8, [0x7D, 0x0F, 0xA2, 0xF5, 0x3C, 0x96, 0x5A, 0xE1, 0x7B, 0x12, 0x84, 0xFF]),
    (0x00000112, 0x3, 0x8, [0xDD, 0xEA, 0xA2, 0xF5, 0x3C, 0x96, 0x5A, 0xE1, 0x7B, 0x12, 0x84, 0xFF]),
    (0x00000022, 0x3, 0x10, [0x7D, 0x6F, 0xA6, 0xF5, 0x3C, 0x96, 0x5A, 0xE1, 0x7B, 0x12, 0x84, 0xFF]),
    (0x00000032, 0x3, 0x10, [0xD9, 0xBD, 0xE2, 0xF5, 0x3C, 0x96, 0x5A, 0xE1, 0x7B, 0x12, 0x84, 0xFF]),
    (0x00000122, 0x3, 0x10, [0x7D, 0x6F, 0xA6, 0xF5, 0x3C, 0x96, 0x5A, 0xE1, 0x7B, 0x12, 0x84, 0xFF]),
    (0x00000132, 0x3, 0x10, [0xD9, 0xBD, 0xE2, 0xF5, 0x3C, 0x96, 0x5A, 0xE1, 0x7B, 0x12, 0x84, 0xFF]),
    (0x00000042, 0x3, 0x20, [0x7D, 0x6F, 0x5E, 0x4D, 0x3C, 0x96, 0x5A, 0xE1, 0x7B, 0x12, 0x84, 0xFF]),
    (0x00000052, 0x3, 0x20, [0xD1, 0x35, 0x79, 0xBD, 0xFC, 0x96, 0x5A, 0xE1, 0x7B, 0x12, 0x84, 0xFF]),
    (0x00000142, 0x3, 0x20, [0x7D, 0x6F, 0x5E, 0x4D, 0x3C, 0x96, 0x5A, 0xE1, 0x7B, 0x12, 0x84, 0xFF]),
    (0x00000152, 0x3, 0x20, [0xD1, 0x35, 0x79, 0xBD, 0xFC, 0x96, 0x5A, 0xE1, 0x7B, 0x12, 0x84, 0xFF]),
    (0x00000062, 0x3, 0x40, [0x7D, 0x6F, 0x5E, 0x4D, 0x3C, 0x2B, 0x1A, 0x09, 0x78, 0x12, 0x84, 0xFF]),
    (0x00000072, 0x3, 0x40, [0xC0, 0x24, 0x68, 0xAC, 0xF1, 0x35, 0x79, 0xBD, 0xFB, 0x12, 0x84, 0xFF]),
    (0x00000162, 0x3, 0x40, [0x7D, 0x6F, 0x5E, 0x4D, 0x3C, 0x2B, 0x1A, 0x09, 0x78, 0x12, 0x84, 0xFF]),
    (0x00000172, 0x3, 0x40, [0xC0, 0x24, 0x68, 0xAC, 0xF1, 0x35, 0x79, 0xBD, 0xFB, 0x12, 0x84, 0xFF]),
    (0x00000082, 0x3, 0x40, [0x7D, 0x6F, 0x5E, 0x4D, 0x3C, 0x2B, 0x1A, 0x09, 0x78, 0x12, 0x84, 0xFF]),
    (0x00000092, 0x3, 0x40, [0xC0, 0x24, 0x68, 0xAC, 0xF1, 0x35, 0x79, 0xBD, 0xFB, 0x12, 0x84, 0xFF]),
    (0x00000182, 0x3, 0x40, [0x7D, 0x6F, 0x5E, 0x4D, 0x3C, 0x2B, 0x1A, 0x09, 0x78, 0x12, 0x84, 0xFF]),
    (0x00000192, 0x3, 0x40, [0xC0, 0x24, 0x68, 0xAC, 0xF1, 0x35, 0x79, 0xBD, 0xFB, 0x12, 0x84, 0xFF])] : List (Nat × Word32 × Word32 × List Byte)).all (writesTo true) = true := by
  decide +kernel

/-- The examples of R240 to R279, scalar forms. -/
theorem test_write_scalar : ([
    (0x00000202, 0x4, 0x4, 0xF0E1D2C3B4A596F7),
    (0x00000212, 0x4, 0x4, 0xF0E1D2C3B4A5968F),
    (0x00000302, 0x4, 0x4, 0xF0E1D2C3B4A596F7),
    (0x00000312, 0x4, 0x4, 0xF0E1D2C3B4A5968F),
    (0x00000222, 0x4, 0xC, 0xF0E1D2C3B4A5DEF7),
    (0x00000232, 0x4, 0xC, 0xF0E1D2C3B4A5EF8D),
    (0x00000322, 0x4, 0xC, 0xF0E1D2C3B4A5DEF7),
    (0x00000332, 0x4, 0xC, 0xF0E1D2C3B4A5EF8D),
    (0x00000242, 0x4, 0x1C, 0xF0E1D2C39ABCDEF7),
    (0x00000252, 0x4, 0x1C, 0xF0E1D2C3EFCDAB89),
    (0x00000342, 0x4, 0x1C, 0xF0E1D2C39ABCDEF7),
    (0x00000352, 0x4, 0x1C, 0xF0E1D2C3EFCDAB89),
    (0x00000262, 0x4, 0x3C, 0x123456789ABCDEF7),
    (0x00000272, 0x4, 0x3C, 0xEFCDAB8967452381),
    (0x00000362, 0x4, 0x3C, 0x123456789ABCDEF7),
    (0x00000372, 0x4, 0x3C, 0xEFCDAB8967452381),
    (0x00000282, 0x4, 0x3C, 0x123456789ABCDEF7),
    (0x00000292, 0x4, 0x3C, 0xEFCDAB8967452381),
    (0x00000382, 0x4, 0x3C, 0x123456789ABCDEF7),
    (0x00000392, 0x4, 0x3C, 0xEFCDAB8967452381)] : List (Nat × Word32 × Word32 × Word64)).all (scalarTo true) = true := by
  decide +kernel

/-- The examples of R305 to R324. -/
theorem test_cursor_read : ([
    (0x00000005, 0x5, 0x6, 0x16, 0xB),
    (0x00000015, 0x5, 0x6, 0x28, 0xB),
    (0x00000105, 0x5, 0x6, 0x16, 0xB),
    (0x00000115, 0x5, 0x6, 0xFFFFFFFFFFFFFFE8, 0xB),
    (0x00000025, 0x5, 0xE, 0x1056, 0x13),
    (0x00000035, 0x5, 0xE, 0x2855, 0x13),
    (0x00000125, 0x5, 0xE, 0x1056, 0x13),
    (0x00000135, 0x5, 0xE, 0xFFFFFFFFFFFFE855, 0x13),
    (0x00000045, 0x5, 0x1E, 0x27AD1056, 0x23),
    (0x00000055, 0x5, 0x1E, 0x285517A9, 0x23),
    (0x00000145, 0x5, 0x1E, 0xFFFFFFFFE7AD1056, 0x23),
    (0x00000155, 0x5, 0x1E, 0xFFFFFFFFE85517A9, 0x23),
    (0x00000065, 0x5, 0x3E, 0x1F0AD4B1E7AD1056, 0x43),
    (0x00000075, 0x5, 0x3E, 0x285517A9E4B2D70B, 0x43),
    (0x00000165, 0x5, 0x3E, 0x1F0AD4B1E7AD1056, 0x43),
    (0x00000175, 0x5, 0x3E, 0xE85517A9E4B2D70B, 0x43),
    (0x00000085, 0x5, 0x3E, 0x1F0AD4B1E7AD1056, 0x43),
    (0x00000095, 0x5, 0x3E, 0x285517A9E4B2D70B, 0x43),
    (0x00000185, 0x5, 0x3E, 0x1F0AD4B1E7AD1056, 0x43),
    (0x00000195, 0x5, 0x3E, 0xE85517A9E4B2D70B, 0x43)] : List (Nat × Word32 × Word32 × Word64 × Word32)).all (cursorReadsTo true) = true := by
  decide +kernel

/-- The examples of R325 to R344. -/
theorem test_cursor_write : ([
    (0x00000006, 0x5, 0x6, [0xED, 0x0D, 0xA2, 0xF5, 0x3C, 0x96, 0x5A, 0xE1, 0x7B, 0x12, 0x84, 0xFF], 0xB),
    (0x00000016, 0x5, 0x6, [0xCD, 0xEA, 0xA2, 0xF5, 0x3C, 0x96, 0x5A, 0xE1, 0x7B, 0x12, 0x84, 0xFF], 0xB),
    (0x00000106, 0x5, 0x6, [0xED, 0x0D, 0xA2, 0xF5, 0x3C, 0x96, 0x5A, 0xE1, 0x7B, 0x12, 0x84, 0xFF], 0xB),
    (0x00000116, 0x5, 0x6, [0xCD, 0xEA, 0xA2, 0xF5, 0x3C, 0x96, 0x5A, 0xE1, 0x7B, 0x12, 0x84, 0xFF], 0xB),
    (0x00000026, 0x5, 0xE, [0xED, 0xBD, 0xA1, 0xF5, 0x3C, 0x96, 0x5A, 0xE1, 0x7B, 0x12, 0x84, 0xFF], 0x13),
    (0x00000036, 0x5, 0xE, [0xC9, 0xBD, 0xE2, 0xF5, 0x3C, 0x96, 0x5A, 0xE1, 0x7B, 0x12, 0x84, 0xFF], 0x13),
    (0x00000126, 0x5, 0xE, [0xED, 0xBD, 0xA1, 0xF5, 0x3C, 0x96, 0x5A, 0xE1, 0x7B, 0x12, 0x84, 0xFF], 0x13),
    (0x00000136, 0x5, 0xE, [0xC9, 0xBD, 0xE2, 0xF5, 0x3C, 0x96, 0x5A, 0xE1, 0x7B, 0x12, 0x84, 0xFF], 0x13),
    (0x00000046, 0x5, 0x1E, [0xED, 0xBD, 0x79, 0x35, 0x39, 0x96, 0x5A, 0xE1, 0x7B, 0x12, 0x84, 0xFF], 0x23),
    (0x00000056, 0x5, 0x1E, [0xC9, 0x35, 0x79, 0xBD, 0xFC, 0x96, 0x5A, 0xE1, 0x7B, 0x12, 0x84, 0xFF], 0x23),
    (0x00000146, 0x5, 0x1E, [0xED, 0xBD, 0x79, 0x35, 0x39, 0x96, 0x5A, 0xE1, 0x7B, 0x12, 0x84, 0xFF], 0x23),
    (0x00000156, 0x5, 0x1E, [0xC9, 0x35, 0x79, 0xBD, 0xFC, 0x96, 0x5A, 0xE1, 0x7B, 0x12, 0x84, 0xFF], 0x23),
    (0x00000066, 0x5, 0x3E, [0xED, 0xBD, 0x79, 0x35, 0xF1, 0xAC, 0x68, 0x24, 0x78, 0x12, 0x84, 0xFF], 0x43),
    (0x00000076, 0x5, 0x3E, [0xC8, 0x24, 0x68, 0xAC, 0xF1, 0x35, 0x79, 0xBD, 0xFB, 0x12, 0x84, 0xFF], 0x43),
    (0x00000166, 0x5, 0x3E, [0xED, 0xBD, 0x79, 0x35, 0xF1, 0xAC, 0x68, 0x24, 0x78, 0x12, 0x84, 0xFF], 0x43),
    (0x00000176, 0x5, 0x3E, [0xC8, 0x24, 0x68, 0xAC, 0xF1, 0x35, 0x79, 0xBD, 0xFB, 0x12, 0x84, 0xFF], 0x43),
    (0x00000086, 0x5, 0x3E, [0xED, 0xBD, 0x79, 0x35, 0xF1, 0xAC, 0x68, 0x24, 0x78, 0x12, 0x84, 0xFF], 0x43),
    (0x00000096, 0x5, 0x3E, [0xC8, 0x24, 0x68, 0xAC, 0xF1, 0x35, 0x79, 0xBD, 0xFB, 0x12, 0x84, 0xFF], 0x43),
    (0x00000186, 0x5, 0x3E, [0xED, 0xBD, 0x79, 0x35, 0xF1, 0xAC, 0x68, 0x24, 0x78, 0x12, 0x84, 0xFF], 0x43),
    (0x00000196, 0x5, 0x3E, [0xC8, 0x24, 0x68, 0xAC, 0xF1, 0x35, 0x79, 0xBD, 0xFB, 0x12, 0x84, 0xFF], 0x43)] : List (Nat × Word32 × Word32 × List Byte × Word32)).all (cursorWritesTo true) = true := by
  decide +kernel

/-- The examples of R180 to R219, window forms, with PTR_W = 32. -/
theorem test_read_window_ptr32 : ([
    (0x00000081, 0x3, 0x20, 0x9EB44159),
    (0x00000091, 0x3, 0x20, 0x685517A9),
    (0x00000181, 0x3, 0x20, 0xFFFFFFFF9EB44159),
    (0x00000191, 0x3, 0x20, 0x685517A9)] : List (Nat × Word32 × Word32 × Word64)).all (readsTo false) = true := by
  decide +kernel

/-- The examples of R180 to R219, scalar forms, with PTR_W = 32. -/
theorem test_read_scalar_ptr32 : ([
    (0x00000281, 0x4, 0x1C, 0xB4A5968),
    (0x00000291, 0x4, 0x1C, 0x796A5B4),
    (0x00000381, 0x4, 0x1C, 0xFFFFFFFFFB4A5968),
    (0x00000391, 0x4, 0x1C, 0x796A5B4)] : List (Nat × Word32 × Word32 × Word64)).all (readsTo false) = true := by
  decide +kernel

/-- The examples of R240 to R279, window forms, with PTR_W = 32. -/
theorem test_write_window_ptr32 : ([
    (0x00000082, 0x3, 0x20, [0x7D, 0x6F, 0x5E, 0x4D, 0x3C, 0x96, 0x5A, 0xE1, 0x7B, 0x12, 0x84, 0xFF]),
    (0x00000092, 0x3, 0x20, [0xD1, 0x35, 0x79, 0xBD, 0xFC, 0x96, 0x5A, 0xE1, 0x7B, 0x12, 0x84, 0xFF]),
    (0x00000182, 0x3, 0x20, [0x7D, 0x6F, 0x5E, 0x4D, 0x3C, 0x96, 0x5A, 0xE1, 0x7B, 0x12, 0x84, 0xFF]),
    (0x00000192, 0x3, 0x20, [0xD1, 0x35, 0x79, 0xBD, 0xFC, 0x96, 0x5A, 0xE1, 0x7B, 0x12, 0x84, 0xFF])] : List (Nat × Word32 × Word32 × List Byte)).all (writesTo false) = true := by
  decide +kernel

/-- The examples of R240 to R279, scalar forms, with PTR_W = 32. -/
theorem test_write_scalar_ptr32 : ([
    (0x00000282, 0x4, 0x1C, 0xF0E1D2C39ABCDEF7),
    (0x00000292, 0x4, 0x1C, 0xF0E1D2C3EFCDAB89),
    (0x00000382, 0x4, 0x1C, 0xF0E1D2C39ABCDEF7),
    (0x00000392, 0x4, 0x1C, 0xF0E1D2C3EFCDAB89)] : List (Nat × Word32 × Word32 × Word64)).all (scalarTo false) = true := by
  decide +kernel

/-- The examples of R305 to R324, with PTR_W = 32. -/
theorem test_cursor_read_ptr32 : ([
    (0x00000085, 0x5, 0x1E, 0x27AD1056, 0x23),
    (0x00000095, 0x5, 0x1E, 0x285517A9, 0x23),
    (0x00000185, 0x5, 0x1E, 0xFFFFFFFFE7AD1056, 0x23),
    (0x00000195, 0x5, 0x1E, 0xFFFFFFFFE85517A9, 0x23)] : List (Nat × Word32 × Word32 × Word64 × Word32)).all (cursorReadsTo false) = true := by
  decide +kernel

/-- The examples of R325 to R344, with PTR_W = 32. -/
theorem test_cursor_write_ptr32 : ([
    (0x00000086, 0x5, 0x1E, [0xED, 0xBD, 0x79, 0x35, 0x39, 0x96, 0x5A, 0xE1, 0x7B, 0x12, 0x84, 0xFF], 0x23),
    (0x00000096, 0x5, 0x1E, [0xC9, 0x35, 0x79, 0xBD, 0xFC, 0x96, 0x5A, 0xE1, 0x7B, 0x12, 0x84, 0xFF], 0x23),
    (0x00000186, 0x5, 0x1E, [0xED, 0xBD, 0x79, 0x35, 0x39, 0x96, 0x5A, 0xE1, 0x7B, 0x12, 0x84, 0xFF], 0x23),
    (0x00000196, 0x5, 0x1E, [0xC9, 0x35, 0x79, 0xBD, 0xFC, 0x96, 0x5A, 0xE1, 0x7B, 0x12, 0x84, 0xFF], 0x23)] : List (Nat × Word32 × Word32 × List Byte × Word32)).all (cursorWritesTo false) = true := by
  decide +kernel

/-- The examples of R291 and R292. -/
theorem test_read_bit : ([
    (0x00000003, 0x3, 0x0, 0x1),
    (0x00000003, 0xD, 0x0, 0x0),
    (0x00000013, 0x3, 0x0, 0x0),
    (0x00000013, 0x0, 0x0, 0x1)] : List (Nat × Word32 × Word32 × Word64)).all (readsTo true) = true := by
  decide +kernel

/-- The examples of R345 and R346. -/
theorem test_cursor_read_bit : ([
    (0x00000007, 0x5, 0x0, 0x0, 0x6),
    (0x00000007, 0x5F, 0x0, 0x1, 0x60),
    (0x00000017, 0x5, 0x0, 0x1, 0x6)] : List (Nat × Word32 × Word32 × Word64 × Word32)).all (cursorReadsTo true) = true := by
  decide +kernel

/-- The examples of R293 and R294. -/
theorem test_write_bit : ([
    (0x00000004, 0xD, 0x1, [0xCD, 0x2A, 0xA2, 0xF5, 0x3C, 0x96, 0x5A, 0xE1, 0x7B, 0x12, 0x84, 0xFF]),
    (0x00000004, 0x0, 0x0, [0xCC, 0x0A, 0xA2, 0xF5, 0x3C, 0x96, 0x5A, 0xE1, 0x7B, 0x12, 0x84, 0xFF]),
    (0x00000014, 0xD, 0x1, [0xCD, 0x0E, 0xA2, 0xF5, 0x3C, 0x96, 0x5A, 0xE1, 0x7B, 0x12, 0x84, 0xFF]),
    (0x00000014, 0x0, 0x0, [0x4D, 0x0A, 0xA2, 0xF5, 0x3C, 0x96, 0x5A, 0xE1, 0x7B, 0x12, 0x84, 0xFF])] : List (Nat × Word32 × Word64 × List Byte)).all bitTo = true := by
  decide +kernel

/-- The examples of R347 and R348. -/
theorem test_cursor_write_bit : ([
    (0x00000008, 0x5, 0x1, [0xED, 0x0A, 0xA2, 0xF5, 0x3C, 0x96, 0x5A, 0xE1, 0x7B, 0x12, 0x84, 0xFF], 0x6),
    (0x00000018, 0x5, 0x0, [0xC9, 0x0A, 0xA2, 0xF5, 0x3C, 0x96, 0x5A, 0xE1, 0x7B, 0x12, 0x84, 0xFF], 0x6)] : List (Nat × Word32 × Word64 × List Byte × Word32)).all cursorBitTo = true := by
  decide +kernel

/-- The examples of R350 to R352. -/
theorem test_seek : ([
    (0x00000009, 0x0, 0x11, 0x11),
    (0x00000409, 0x11, 0xFFFFFFF9, 0xA),
    (0x00000809, 0x0, 0xFFFFFFF8, 0x58)] : List (Nat × Word32 × Word32 × Word32)).all seeksTo = true := by
  decide +kernel

/-- The range, index and illegal-word faults of 95_test_vectors.md, one step each. -/
theorem test_faults : ([
    (0x00000061, 0x21, 0x40, .outOfRange), (0x00000001, 0x0, 0x9, .outOfRange),
    (0x00000001, 0x0, 0xFFFFFFFF, .outOfRange), (0x00000001, 0xFFFFFFFF, 0x1, .outOfRange),
    (0x00000041, 0x7FFFFFFF, 0x1, .outOfRange), (0x00000005, 0x60, 0x1, .outOfRange),
    (0x00000003, 0x60, 0x0, .index), (0x00000017, 0xFFFFFFFF, 0x0, .index),
    (0x00000201, 0x5, 0x4, .outOfRange), (0x000000A1, 0x0, 0x8, .illegalCommand)] :
    List (Nat × Word32 × Word32 × ResultCode)).all faultsTo = true := by
  decide +kernel

/-- R370: the example's binding; a request of 2^28 bytes faults and keeps the earlier one. -/
theorem test_bind : (run 0x0000000A { State.reset with wbase := 0x1000, wlenReq := 12 }).any (fun t =>
      t.bound && t.winBase == 0x1000 && t.winLen == 12 && lengthWord t == 96 && t.err == .ok) = true ∧
    (run 0x0000000A { base true with wlenReq := 0x10000000 }).any (fun t =>
      t.winLen == 12 && t.winBase == 0x1000 && t.err == .size) = true := by
  decide +kernel

/-- The identification example of 95_test_vectors.md, and R37: STATUS after reset, after BIND, after a fault. -/
theorem test_registers : capWord Config.defaultParams = 0x001C2001 ∧
    statusWord State.reset = 0 ∧ statusWord (base true) = 0x10 ∧
    statusWord { base true with err := .outOfRange, sticky := true } = 0x112 := by
  decide +kernel

/-- Masking Core vectors T2, T4, T7 and T11 of 95_test_vectors.md. -/
theorem test_masking_core : extractMsb (0xCD : BitVec 8) 0 7 = 0x66 ∧
    extractMsb (0x0ACD : BitVec 16) 5 6 = 0x28 ∧ insertMsb (0x0ACD : BitVec 16) 0 0 7 = 0x0A01 ∧
    extractMsb (0x80000000 : BitVec 32) 7 25 = 0x80 ∧ extractLsb (0xCD : BitVec 8) 0 7 = 0x4D ∧
    insertLsb (0x0ACD : BitVec 16) 5 0x15 6 = 0x0AAD ∧
    insertMsb (0x0ACD : BitVec 16) 5 0x15 6 = 0xAACA := by
  decide +kernel

/-- A whole byte reads the same in both orders: R135 and R134 by hand on 0xCD, and vectors T26 and T53,
which read that byte as 0x…CD; its bit reversal, R157's first sentence, is 0xB3 (log 19). -/
theorem test_whole_byte_in_both_orders : extractMsb (0xCD : BitVec 8) 0 8 = 0xCD ∧
    extractLsb (0xCD : BitVec 8) 0 8 = 0xCD ∧ revByteBits (0xCD : BitVec 8) = 0xB3 ∧
    readsTo true (0x00000101, 0, 8, 0xFFFFFFFFFFFFFFCD) = true ∧
    readsTo false (0x00000191, 0, 8, 0xFFFFFFFFFFFFFFCD) = true := by
  decide +kernel

/-- The first step after reset runs the word that `withFetchWord` places (R424: a scalar read works). -/
theorem test_first_step_after_reset : (run 0x00000201 State.reset).any (fun t =>
    t.rdata == 0 && t.err == .ok && t.hostQueue == []) = true := by
  decide +kernel

/-- R92(d) in a 2-byte address space: the indices 0 and 2 have one address, and in a race on it each reads
a free value of its own. -/
theorem test_raced_reads_are_separate :
    winAddr (State.resetWith { ptr64 := true, addrWMinus1 := 0 }) 0 =
      winAddr (State.resetWith { ptr64 := true, addrWMinus1 := 0 }) 2 ∧
    winRead ((State.resetWith { ptr64 := true, addrWMinus1 := 0 }).setRaced [0]) 0 = Config.freeByte 0 ∧
    winRead ((State.resetWith { ptr64 := true, addrWMinus1 := 0 }).setRaced [0]) 2 = Config.freeByte 2 :=
  ⟨rfl, rfl, rfl⟩

/-! ## Every statement's hypotheses are met -/

/-- `base` with its operands: OFFSET and POS at `B`, COUNT at `n`. -/
def at_ (B n : Word32) : State :=
  { base true with offset := B, pos := B, count := n, wdata := 0x0123456789ABCDEF }

/-- A device of a 2-byte address space with a 4-byte window. -/
def tiny : State :=
  { State.resetWith { ptr64 := false, addrWMinus1 := 0 } with bound := true, winLen := 4, count := 24 }

/-- `at_` with a port that errs on reading 0x100B and on writing 0x1000. -/
def badPort (B n : Word32) : State :=
  { at_ B n with port := { readErrs := [0x100B], writeErrs := [0x1000] } }

theorem legal_of_check {s : State} {w : WidthClass} {B : Int}
    (h : decide (s.bound = true ∧ 0 ≤ sint s.count ∧ sint s.count ≤ (widthBits s.params w : Int) ∧
      0 ≤ B ∧ B + sint s.count ≤ 8 * (s.winLen.toNat : Int)) = true) : FieldLegal s w B := by
  obtain ⟨h1, h2, h3, h4, h5⟩ := of_decide_eq_true h
  exact ⟨h1, h2, h3, h4, h5⟩

theorem bit_of_check {s : State} {B : Int}
    (h : decide (s.bound = true ∧ 0 ≤ B / 8 ∧ B / 8 < (s.winLen.toNat : Int)) = true) :
    BitLegal s B := by
  obtain ⟨h1, h2, h3⟩ := of_decide_eq_true h
  exact ⟨h1, h2, h3⟩

theorem scalar_of_check {s : State} {w : WidthClass}
    (h : decide (0 ≤ sint s.count ∧ sint s.count ≤ (widthBits s.params w : Int) ∧
      0 ≤ sint s.offset ∧ sint s.offset + sint s.count ≤ (widthBits s.params w : Int)) = true) :
    ScalarLegal s w := by
  obtain ⟨h1, h2, h3, h4⟩ := of_decide_eq_true h
  exact ⟨h1, h2, h3, h4⟩

theorem not_legal_of_check {s : State} {w : WidthClass} {B : Int}
    (h : decide (8 * (s.winLen.toNat : Int) < B + sint s.count) = true) : ¬ FieldLegal s w B :=
  fun hl => absurd hl.inWindow (by have := of_decide_eq_true h; omega)

theorem not_bit_of_check {s : State} {B : Int}
    (h : decide ((s.winLen.toNat : Int) ≤ B / 8) = true) : ¬ BitLegal s B :=
  fun hl => absurd hl.indexInWindow (by have := of_decide_eq_true h; omega)

theorem reads_of_check {s : State} {a : List Nat} (h : readErrs s a = false) : PortReads s a := by
  simpa [readErrs, PortReads] using h

theorem writes_of_check {s : State} {a : List Nat} (h : writeErrs s a = false) : PortWrites s a := by
  simp only [writeErrs, readErrs, Bool.or_eq_false_iff, List.any_eq_false,
    List.contains_iff_mem] at h
  exact fun x hx => ⟨h.1 x hx, h.2 x hx⟩

theorem not_reads_of_check {s : State} {a : List Nat} (h : readErrs s a = true) :
    ¬ PortReads s a := by
  simpa [readErrs, PortReads] using h

theorem not_writes_of_check {s : State} {a : List Nat} (h : writeErrs s a = true) :
    ¬ PortWrites s a := by
  intro hp
  simp only [writeErrs, readErrs, Bool.or_eq_true, List.any_eq_true, List.contains_iff_mem] at h
  rcases h with ⟨x, hx, he⟩ | ⟨x, hx, he⟩
  · exact (hp x hx).1 he
  · exact (hp x hx).2 he

/-- A field that ends with the window, an 8-byte one with its split, and an empty one at the very end. -/
theorem legal_boundaries : FieldLegal (at_ 88 8) .w8 88 ∧ FieldLegal (at_ 31 64) .w64 31 ∧
    FieldLegal (at_ 96 0) .w16 96 ∧ FieldLegal (at_ 0 32) .w32 0 :=
  ⟨legal_of_check (by decide +kernel), legal_of_check (by decide +kernel),
    legal_of_check (by decide +kernel), legal_of_check (by decide +kernel)⟩

theorem bit_boundaries : BitLegal (at_ 95 1) 95 ∧ BitLegal (at_ 0 1) 0 :=
  ⟨bit_of_check (by decide +kernel), bit_of_check (by decide +kernel)⟩

theorem witness_StepRunsTheDecodedCommand :
    ∃ (s : State) (rest : List HostAction) (c : Word32) (i : Instr), s.busy = false ∧
      s.hostQueue = .regWrite .bits32 0x08 c :: rest ∧ decode c = .ok i :=
  ⟨(at_ 88 8).withFetchWord 32 1, [], 1, .rdU8Lsb, rfl, rfl, by decide⟩

theorem witness_IllegalWordOnlySetsStatus :
    ∃ (s : State) (rest : List HostAction) (c : Word32), s.busy = false ∧
      s.hostQueue = .regWrite .bits32 0x08 c :: rest ∧ ∀ i, encode i ≠ c :=
  ⟨(at_ 88 8).withFetchWord 32 0, [], 0, rfl, rfl, fun i => by cases i <;> decide⟩

theorem witness_IdleStepHoldsAllState : (base true).hostQueue = [] := rfl

theorem witness_WindowReadIsTheReferenceReading :
    FieldLegal (at_ 88 8) .w8 (sint (at_ 88 8).offset) ∧
      PortReads (at_ 88 8) (fieldAddrs (at_ 88 8) (sint (at_ 88 8).offset)) :=
  ⟨legal_of_check (by decide +kernel), reads_of_check (by decide +kernel)⟩

theorem witness_PresentationExtendsTheField : 64 ≤ widthBits Config.defaultParams .ptr ∧
    1 ≤ widthBits Config.defaultParams .w8 ∧ (0 < 1 ∧ 0 < 64) := by decide

theorem witness_ScalarReadIsTheReferenceReading : ScalarLegal (at_ 56 8) .w64 ∧
    ScalarLegal (at_ 0 8) .w8 ∧ ScalarLegal (at_ 8 0) .w8 :=
  ⟨scalar_of_check (by decide +kernel), scalar_of_check (by decide +kernel),
    scalar_of_check (by decide +kernel)⟩

theorem witness_BitReadReturnsTheStreamBit :
    BitLegal (at_ 95 1) (sint (at_ 95 1).offset) ∧
      PortReads (at_ 95 1) [winAddr (at_ 95 1) (byteIndex (sint (at_ 95 1).offset))] :=
  ⟨bit_of_check (by decide +kernel), reads_of_check (by decide +kernel)⟩

theorem witness_BitReadIsAOneBitFieldRead :
    BitLegal (at_ 95 1) (sint (at_ 95 1).offset) ∧ (at_ 95 1).count = 1 :=
  ⟨bit_of_check (by decide +kernel), rfl⟩

theorem witness_CursorReadReadsAndAdvances :
    FieldLegal (at_ 88 8) .w8 (sint (at_ 88 8).pos) ∧
      PortReads (at_ 88 8) (fieldAddrs (at_ 88 8) (sint (at_ 88 8).pos)) :=
  ⟨legal_of_check (by decide +kernel), reads_of_check (by decide +kernel)⟩

theorem witness_CursorBitReadReadsAndAdvances :
    BitLegal (at_ 95 1) (sint (at_ 95 1).pos) ∧
      PortReads (at_ 95 1) [winAddr (at_ 95 1) (byteIndex (sint (at_ 95 1).pos))] :=
  ⟨bit_of_check (by decide +kernel), reads_of_check (by decide +kernel)⟩

theorem witness_WindowWriteSetsExactlyTheField : (at_ 31 64).mem.wf = true ∧
    FieldLegal (at_ 31 64) .w64 (sint (at_ 31 64).offset) ∧
    PortWrites (at_ 31 64) (fieldAddrs (at_ 31 64) (sint (at_ 31 64).offset)) ∧
    fieldBytes (at_ 31 64) (sint (at_ 31 64).offset) ≤ (at_ 31 64).params.addrSpace ∧
    (∃ p, byteIndex (sint (at_ 31 64).offset) ≤ p / 8 ∧
      p / 8 < byteIndex (sint (at_ 31 64).offset) + fieldBytes (at_ 31 64) (sint (at_ 31 64).offset)) ∧
    ∃ x, x ∉ fieldAddrs (at_ 31 64) (sint (at_ 31 64).offset) :=
  ⟨by decide +kernel, legal_of_check (by decide +kernel), writes_of_check (by decide +kernel),
    by decide +kernel, ⟨31, by decide +kernel⟩, ⟨0x1002, by decide +kernel⟩⟩

theorem witness_LongSpanWriteKeepsItsFrame : tiny.mem.wf = true ∧
    (FieldLegal tiny .w32 (sint tiny.offset) ∧ PortWrites tiny (fieldAddrs tiny (sint tiny.offset)) ∧
      tiny.params.addrSpace < fieldBytes tiny (sint tiny.offset)) ∧
    (FieldLegal tiny .w32 (sint tiny.pos) ∧ PortWrites tiny (fieldAddrs tiny (sint tiny.pos)) ∧
      tiny.params.addrSpace < fieldBytes tiny (sint tiny.pos)) :=
  ⟨rfl, ⟨legal_of_check (by decide +kernel), writes_of_check (by decide +kernel), by decide +kernel⟩,
    legal_of_check (by decide +kernel), writes_of_check (by decide +kernel), by decide +kernel⟩

theorem witness_CursorWriteSetsTheFieldAndAdvances : (at_ 88 8).mem.wf = true ∧
    FieldLegal (at_ 88 8) .w8 (sint (at_ 88 8).pos) ∧
    PortWrites (at_ 88 8) (fieldAddrs (at_ 88 8) (sint (at_ 88 8).pos)) ∧
    fieldBytes (at_ 88 8) (sint (at_ 88 8).pos) ≤ (at_ 88 8).params.addrSpace :=
  ⟨by decide +kernel, legal_of_check (by decide +kernel), writes_of_check (by decide +kernel),
    by decide +kernel⟩

theorem witness_ScalarWriteSetsExactlyTheField : ScalarLegal (at_ 0 32) .w32 ∧
    ScalarLegal (at_ 31 1) .w32 ∧ (∃ i, widthBits (at_ 0 32).params .w32 ≤ i) :=
  ⟨scalar_of_check (by decide +kernel), scalar_of_check (by decide +kernel), 32, by decide⟩

theorem witness_BitWriteSetsExactlyOneBit : (at_ 95 1).mem.wf = true ∧
    BitLegal (at_ 95 1) (sint (at_ 95 1).offset) ∧
    PortWrites (at_ 95 1) [winAddr (at_ 95 1) (byteIndex (sint (at_ 95 1).offset))] :=
  ⟨by decide +kernel, bit_of_check (by decide +kernel), writes_of_check (by decide +kernel)⟩

theorem witness_CursorBitWriteSetsOneBitAndAdvances : (at_ 0 1).mem.wf = true ∧
    BitLegal (at_ 0 1) (sint (at_ 0 1).pos) ∧
    PortWrites (at_ 0 1) [winAddr (at_ 0 1) (byteIndex (sint (at_ 0 1).pos))] :=
  ⟨by decide +kernel, bit_of_check (by decide +kernel), writes_of_check (by decide +kernel)⟩

theorem witness_PointerClassIsTheFixedClass :
    WidthClass.w64 = (if (base true).params.ptr64 then .w64 else .w32) ∧
      WidthClass.w32 = (if (base false).params.ptr64 then .w64 else .w32) := ⟨rfl, rfl⟩

theorem witness_BitWriteIsAOneBitFieldWrite :
    BitLegal (at_ 95 1) (sint (at_ 95 1).offset) ∧ (at_ 95 1).count = 1 :=
  ⟨bit_of_check (by decide +kernel), rfl⟩

theorem witness_WrittenFieldReadsBack : (at_ 31 64).mem.wf = true ∧ (at_ 31 64).raced = [] ∧
    FieldLegal (at_ 31 64) .w64 (sint (at_ 31 64).offset) ∧
    PortWrites (at_ 31 64) (fieldAddrs (at_ 31 64) (sint (at_ 31 64).offset)) ∧
    fieldBytes (at_ 31 64) (sint (at_ 31 64).offset) ≤ (at_ 31 64).params.addrSpace :=
  ⟨by decide +kernel, rfl, legal_of_check (by decide +kernel), writes_of_check (by decide +kernel),
    by decide +kernel⟩

/-- Two fields that meet at bit 5, in both orders of the offsets. -/
theorem witness_DisjointWritesCommute : (base true).mem.wf = true ∧
    (base true).winLen.toNat ≤ (base true).params.addrSpace ∧
    (base true).port = { readErrs := [], writeErrs := [] } ∧ (base true).raced = [] ∧
    FieldLegal (withOperands (base true) 0 5 1) .w8 (sint 0) ∧
    FieldLegal (withOperands (base true) 5 16 2) .w16 (sint 5) ∧
    sint 0 + sint 5 ≤ sint 5 ∧
    (sint 5 + sint 16 ≤ sint 0 ∨ sint 0 + sint 5 ≤ sint 5) :=
  ⟨by decide +kernel, by decide +kernel, rfl, rfl, legal_of_check (by decide +kernel),
    legal_of_check (by decide +kernel), by decide, by decide⟩

theorem witness_WidthClassDoesNotChangeAField :
    FieldLegal (at_ 88 8) .w8 (sint (at_ 88 8).offset) ∧
      FieldLegal (at_ 88 8) .w64 (sint (at_ 88 8).offset) :=
  ⟨legal_of_check (by decide +kernel), legal_of_check (by decide +kernel)⟩

theorem witness_MsbFieldIsTheReversedLsbField : 64 ≤ 64 ∧ 0 ≤ 64 := by decide

theorem witness_MsbInsertMaskIsByteBitReversal :
    (8 ∈ [8, 16, 32, 64] ∧ 1 ≤ 8 ∧ 0 + 8 ≤ 8) ∧ (64 ∈ [8, 16, 32, 64] ∧ 1 ≤ 1 ∧ 63 + 1 ≤ 64) := by
  decide

theorem witness_CursorAdvanceNeverWraps : (at_ 88 8).winLen.toNat < Config.maxLen ∧
    (∃ t, exec (Instr.cursorRead .w8 .unsigned .lsb) (at_ 88 8) = .next t ∧ t.err = .ok) ∧
    (∃ t, exec (Instr.cursorWrite .w8 .unsigned .lsb) (at_ 88 8) = .next t ∧ t.err = .ok) ∧
    (∃ t, exec (Instr.cursorReadBit .lsb) (at_ 95 1) = .next t ∧ t.err = .ok) ∧
    (∃ t, exec (Instr.cursorWriteBit .msb) (at_ 95 1) = .next t ∧ t.err = .ok) :=
  ⟨by decide +kernel, ⟨_, rfl, by decide +kernel⟩, ⟨_, rfl, by decide +kernel⟩,
    ⟨_, rfl, by decide +kernel⟩, ⟨_, rfl, by decide +kernel⟩⟩

theorem witness_SeekAssignsThePosition : State.reset.bound = false ∧ (base true).bound = true :=
  ⟨rfl, rfl⟩

theorem witness_BindBindsTheWindow :
    2 ^ 28 ≤ ({ base true with wlenReq := 0x10000000 } : State).wlenReq.toNat ∧
      ({ base true with wlenReq := 0x0FFFFFFF } : State).wlenReq.toNat < 2 ^ 28 := by
  decide +kernel

theorem witness_UnboundWindowCommandsFault : State.reset.bound = false := rfl

/-- Each cause of R384 one past its boundary, for the offset and the position. -/
theorem witness_RangeViolationsFault : (base true).bound = true ∧
    sint (at_ 0 0xFFFFFFFF).count < 0 ∧
    (widthBits (at_ 0 9).params .w8 : Int) < sint (at_ 0 9).count ∧
    sint (at_ 0xFFFFFFFF 1).offset < 0 ∧ sint (at_ 0xFFFFFFFF 1).pos < 0 ∧
    8 * ((at_ 89 8).winLen.toNat : Int) < sint (at_ 89 8).offset + sint (at_ 89 8).count ∧
    8 * ((at_ 89 8).winLen.toNat : Int) < sint (at_ 89 8).pos + sint (at_ 89 8).count ∧
    (widthBits (at_ 1 8).params .w8 : Int) < sint (at_ 1 8).offset + sint (at_ 1 8).count := by
  decide +kernel

theorem witness_IndexViolationsFault : (base true).bound = true ∧
    sint (at_ 0xFFFFFFFF 1).offset >>> (3 : Nat) < 0 ∧
    ((at_ 96 1).winLen.toNat : Int) ≤ sint (at_ 96 1).offset >>> (3 : Nat) ∧
    sint (at_ 0xFFFFFFFF 1).pos >>> (3 : Nat) < 0 ∧
    ((at_ 96 1).winLen.toNat : Int) ≤ sint (at_ 96 1).pos >>> (3 : Nat) := by
  decide +kernel

theorem witness_PortErrorFaultsReads :
    (FieldLegal (badPort 80 9) .w16 (sint (badPort 80 9).offset) ∧
      ¬ PortReads (badPort 80 9) (fieldAddrs (badPort 80 9) (sint (badPort 80 9).offset))) ∧
    (FieldLegal (badPort 80 9) .w16 (sint (badPort 80 9).pos) ∧
      ¬ PortReads (badPort 80 9) (fieldAddrs (badPort 80 9) (sint (badPort 80 9).pos))) ∧
    (BitLegal (badPort 88 1) (sint (badPort 88 1).offset) ∧
      ¬ PortReads (badPort 88 1) [winAddr (badPort 88 1) (byteIndex (sint (badPort 88 1).offset))]) ∧
    (BitLegal (badPort 88 1) (sint (badPort 88 1).pos) ∧
      ¬ PortReads (badPort 88 1) [winAddr (badPort 88 1) (byteIndex (sint (badPort 88 1).pos))]) :=
  ⟨⟨legal_of_check (by decide +kernel), not_reads_of_check (by decide +kernel)⟩,
    ⟨legal_of_check (by decide +kernel), not_reads_of_check (by decide +kernel)⟩,
    ⟨bit_of_check (by decide +kernel), not_reads_of_check (by decide +kernel)⟩,
    bit_of_check (by decide +kernel), not_reads_of_check (by decide +kernel)⟩

theorem witness_PortErrorFaultsWrites :
    (FieldLegal (badPort 7 9) .w16 (sint (badPort 7 9).offset) ∧
      ¬ PortWrites (badPort 7 9) (fieldAddrs (badPort 7 9) (sint (badPort 7 9).offset))) ∧
    (FieldLegal (badPort 7 9) .w16 (sint (badPort 7 9).pos) ∧
      ¬ PortWrites (badPort 7 9) (fieldAddrs (badPort 7 9) (sint (badPort 7 9).pos))) ∧
    (BitLegal (badPort 7 1) (sint (badPort 7 1).offset) ∧
      ¬ PortWrites (badPort 7 1) [winAddr (badPort 7 1) (byteIndex (sint (badPort 7 1).offset))]) ∧
    (BitLegal (badPort 7 1) (sint (badPort 7 1).pos) ∧
      ¬ PortWrites (badPort 7 1) [winAddr (badPort 7 1) (byteIndex (sint (badPort 7 1).pos))]) :=
  ⟨⟨legal_of_check (by decide +kernel), not_writes_of_check (by decide +kernel)⟩,
    ⟨legal_of_check (by decide +kernel), not_writes_of_check (by decide +kernel)⟩,
    ⟨bit_of_check (by decide +kernel), not_writes_of_check (by decide +kernel)⟩,
    bit_of_check (by decide +kernel), not_writes_of_check (by decide +kernel)⟩

theorem witness_FaultsAreAtomic : (at_ 96 1).busy = false ∧
    ∃ t, issue 0x00000001 (at_ 96 1) = .next t ∧ t.err ≠ .ok ∧ t.err ≠ .busError :=
  ⟨rfl, _, rfl, by decide +kernel, by decide +kernel⟩

theorem witness_StickyFollowsItsRule :
    (∃ t, issue 0x00000001 (at_ 96 1) = .next t) ∧ (base true).busy = false := ⟨⟨_, rfl⟩, rfl⟩

/-- Each clause: no window, an operand one past its boundary, a port error, and none of these. -/
theorem witness_FaultsFollowTheirPriority :
    (State.reset.bound = false ∧ ∃ t, exec .rdU8Lsb State.reset = .next t) ∧
    ((at_ 89 8).bound = true ∧ ¬ FieldLegal (at_ 89 8) .w8 (sint (at_ 89 8).offset)) ∧
    ((at_ 96 1).bound = true ∧ ¬ BitLegal (at_ 96 1) (sint (at_ 96 1).offset)) ∧
    (FieldLegal (badPort 80 9) .w16 (sint (badPort 80 9).offset) ∧
      ¬ PortReads (badPort 80 9) (fieldAddrs (badPort 80 9) (sint (badPort 80 9).offset))) ∧
    (FieldLegal (badPort 7 9) .w16 (sint (badPort 7 9).offset) ∧
      ¬ PortWrites (badPort 7 9) (fieldAddrs (badPort 7 9) (sint (badPort 7 9).offset))) ∧
    (∃ t, exec .rdU8LsbS (at_ 1 8) = .next t ∧ t.err = .outOfRange) ∧
    ∃ t, exec .wrU8LsbS (at_ 0 8) = .next t ∧ t.err = .ok :=
  ⟨⟨rfl, _, rfl⟩, ⟨rfl, not_legal_of_check (by decide +kernel)⟩,
    ⟨rfl, not_bit_of_check (by decide +kernel)⟩,
    ⟨legal_of_check (by decide +kernel), not_reads_of_check (by decide +kernel)⟩,
    ⟨legal_of_check (by decide +kernel), not_writes_of_check (by decide +kernel)⟩,
    ⟨_, rfl, by decide +kernel⟩, _, rfl, by decide +kernel⟩

/-- The all-zero word encodes no command (R113). -/
theorem zero_illegal (i : Instr) : encode i ≠ 0 := by cases i <;> decide

theorem witness_CommandsChangeOnlyTheirOwnState :
    (∃ t, exec (Instr.read .w8 .signed .msb .window) (at_ 88 8) = .next t) ∧
    (∃ t, exec (Instr.readBit .msb) (at_ 88 8) = .next t) ∧
    (∃ t x, exec (Instr.write .w8 .signed .msb .window) (at_ 88 8) = .next t ∧
      x ∉ fieldAddrs (at_ 88 8) (sint (at_ 88 8).offset)) ∧
    (∃ t, exec (Instr.write .w8 .signed .msb .scalar) (at_ 0 8) = .next t ∧
      widthBits (at_ 0 8).params .w8 ≤ 8) ∧
    (∃ t x, exec (Instr.writeBit .msb) (at_ 88 8) = .next t ∧
      x ≠ winAddr (at_ 88 8) (byteIndex (sint (at_ 88 8).offset))) ∧
    (∃ t, exec (Instr.cursorRead .w8 .signed .msb) (at_ 88 8) = .next t) ∧
    (∃ t x, exec (Instr.cursorWrite .w8 .signed .msb) (at_ 88 8) = .next t ∧
      x ∉ fieldAddrs (at_ 88 8) (sint (at_ 88 8).pos)) ∧
    (∃ t x, exec (Instr.cursorWriteBit .msb) (at_ 88 8) = .next t ∧
      x ≠ winAddr (at_ 88 8) (byteIndex (sint (at_ 88 8).pos))) ∧
    (∃ t, exec (Instr.seek .fromEnd) (at_ 88 8) = .next t ∧ t.err = .ok) ∧
    (∃ t, exec .bind (at_ 88 8) = .next t) ∧
    (∃ t, exec .rdU8Lsb (at_ 89 8) = .next t ∧ t.err ≠ .ok ∧ t.err ≠ .busError) ∧
    (∀ i, encode i ≠ 0) ∧ (at_ 88 8).busy = false ∧ ∃ t, issue 0 (at_ 88 8) = .next t :=
  ⟨⟨_, rfl⟩, ⟨_, rfl⟩, ⟨_, 0x100A, rfl, by decide +kernel⟩, ⟨_, rfl, by decide⟩,
    ⟨_, 0x100A, rfl, by decide +kernel⟩, ⟨_, rfl⟩, ⟨_, 0x100A, rfl, by decide +kernel⟩,
    ⟨_, 0x100A, rfl, by decide +kernel⟩, ⟨_, rfl, by decide +kernel⟩, ⟨_, rfl⟩,
    ⟨_, rfl, by decide +kernel, by decide +kernel⟩, zero_illegal, rfl, _, rfl⟩

theorem witness_CommandsReadOnlyTheirOperands :
    (0x1 : Word64).getLsbD 0 = (at_ 0 1).wdata.getLsbD 0 := by decide +kernel

/-- A write of each kind that changes the last byte of the window. -/
theorem witness_WritesStayInTheirSpan :
    (Instr.bind ∈ [Instr.read .w8 .signed .msb .window, Instr.write .w8 .signed .msb .scalar,
        Instr.readBit .msb, Instr.cursorRead .w8 .signed .msb, Instr.cursorReadBit .msb,
        Instr.seek .begin, .bind] ∧ ∃ t, exec .bind (at_ 88 8) = .next t) ∧
    (∃ t, exec .wrU8Lsb (at_ 88 8) = .next t ∧ t.mem.read 0x100B ≠ (at_ 88 8).mem.read 0x100B) ∧
    (∃ t, exec .cwrU8Lsb (at_ 88 8) = .next t ∧ t.mem.read 0x100B ≠ (at_ 88 8).mem.read 0x100B) ∧
    (∃ t, exec .wrbitLsb { at_ 95 1 with wdata := 0 } = .next t ∧
      t.mem.read 0x100B ≠ (at_ 95 1).mem.read 0x100B) ∧
    ∃ t, exec .cwrbitLsb { at_ 95 1 with wdata := 0 } = .next t ∧
      t.mem.read 0x100B ≠ (at_ 95 1).mem.read 0x100B :=
  ⟨⟨by decide, _, rfl⟩, ⟨_, rfl, by decide +kernel⟩, ⟨_, rfl, by decide +kernel⟩, ⟨_, rfl, by decide +kernel⟩, _, rfl,
    by decide +kernel⟩

theorem witness_WritableRegistersReadBack :
    0x10 ∈ [0x10, 0x14, 0x18, 0x1C, 0x28, 0x2C, 0x30, 0x38, 0x3C, 0x40] ∧
      0x40 ∈ [0x10, 0x14, 0x18, 0x1C, 0x28, 0x2C, 0x30, 0x38, 0x3C, 0x40] ∧
      (base true).busy = false ∧ 0x0C ≠ 0x10 := by decide

theorem witness_RegisterMapReachesTheState : (base true).busy = false ∧
    (0x24, (base true).rdata.extractLsb' 32 32) ∈
      [(0x20, (base true).rdata.extractLsb' 0 32), (0x24, (base true).rdata.extractLsb' 32 32)] ∧
    (base true).rdata.extractLsb' 32 32 = 0x11111111 := by
  decide +kernel

theorem witness_HostAccessRules : (base true).busy = false ∧ AccessWidth.bits8 ≠ .bits32 ∧
    0x11 % 4 ≠ 0 ∧ (0x50 % 4 = 0 ∧ 0x50 ≤ 0x50) ∧
    0x4C ∈ [0x00, 0x04, 0x20, 0x24, 0x34, 0x44, 0x48, 0x4C] := by decide

theorem witness_LengthReportsTheBoundBits :
    ({ base true with winLen := 0x0FFFFFFF } : State).winLen.toNat < Config.maxLen := by decide +kernel

theorem witness_PosWriteIsAnUncheckedSeek : (base true).busy = false ∧ (base true).bound = true :=
  ⟨rfl, rfl⟩

theorem witness_HostAccessWhileBusyIsRefused : ((base true).setBusy true).busy = true ∧ 0x08 ≠ 0x0C :=
  ⟨rfl, by decide⟩

theorem witness_HostMemoryIsPlain : (base true).busy = false ∧ (base true).mem.wf = true ∧
    0xFFFFFFFF < (base true).params.addrSpace ∧ (base true).params.addrSpace ≤ 0x100000000 ∧
    0x1001 ≠ 0x1000 := by decide +kernel

theorem witness_AbandonedCommandKeepsOtherBytes : (base true).busy = false ∧ (∀ j, encode j ≠ 0) ∧
    (Instr.wrU8Lsb ∈ [Instr.read .w8 .unsigned .lsb .window, Instr.write .w8 .unsigned .lsb .window] ∧
      0x1000 ∉ fieldAddrs (at_ 88 8) (sint (at_ 88 8).offset)) ∧
    (Instr.crdU8Lsb ∈ [Instr.cursorRead .w8 .unsigned .lsb, Instr.cursorWrite .w8 .unsigned .lsb] ∧
      0x1000 ∉ fieldAddrs (at_ 88 8) (sint (at_ 88 8).pos)) ∧
    (Instr.wrbitLsb ∈ [Instr.readBit .lsb, Instr.writeBit .lsb] ∧
      0x1000 ≠ winAddr (at_ 95 1) (byteIndex (sint (at_ 95 1).offset))) ∧
    (Instr.crdbitLsb ∈ [Instr.cursorReadBit .lsb, Instr.cursorWriteBit .lsb] ∧
      0x1000 ≠ winAddr (at_ 95 1) (byteIndex (sint (at_ 95 1).pos))) ∧
    Instr.seekEnd ∈ [Instr.read .w8 .unsigned .lsb .scalar, Instr.write .w8 .unsigned .lsb .scalar,
      .seekBegin, .seekCur, .seekEnd, .bind] :=
  ⟨rfl, zero_illegal, by decide +kernel⟩

/-- A raced legal read, and a byte of the window that is neither raced on nor in its span. -/
theorem witness_RacedCommandKeepsOtherBytes : (at_ 88 8).busy = false ∧
    (∀ x ∈ [0x100B, 0xFFFFFFFF], x < (at_ 88 8).params.addrSpace) ∧ 0x100A ∉ [0x100B, 0xFFFFFFFF] ∧
    0x100A ∉ commandSpan 0x00000001 (at_ 88 8) ∧
    0x00000001 = encode (Instr.read .w8 .unsigned .lsb .window) ∧
    FieldLegal (at_ 88 8) .w8 (sint (at_ 88 8).offset) ∧
    PortReads (at_ 88 8) (fieldAddrs (at_ 88 8) (sint (at_ 88 8).offset)) :=
  ⟨rfl, by decide +kernel, by decide, by decide +kernel, by decide,
    legal_of_check (by decide +kernel), reads_of_check (by decide +kernel)⟩

/-- The start state of the vectors meets the invariant. -/
theorem base_inv : (base true).Inv :=
  ⟨by decide +kernel, by decide +kernel, by decide +kernel, by decide +kernel,
    fun h => absurd h (by decide), rfl, rfl, by decide⟩

theorem witness_EveryStepKeepsTheInvariant :
    (base true).Inv ∧ ∃ t, step (base true) = .next t := ⟨base_inv, _, rfl⟩

/-- A duty-keeping action of each kind with a bound, at its bound. -/
theorem witness_DutifulHostNeverStops :
    (∃ rest, ({ base true with hostQueue := [.memWrite 0xFFFFFFFF 1] } : State).hostQueue =
      .memWrite 0xFFFFFFFF 1 :: rest) ∧
    ({ base true with hostQueue := [.memWrite 0xFFFFFFFF 1] } : State).Inv ∧
    (HostAction.memWrite 0xFFFFFFFF 1).dutiful (base true).params = true ∧
    (HostAction.regWrite .bits32 0x4C 1).dutiful (base true).params = true ∧
    (HostAction.racedCommand 1 [0xFFFFFFFF]).dutiful (base true).params = true :=
  ⟨⟨[], rfl⟩, ⟨base_inv.1, base_inv.2, base_inv.3, base_inv.4, base_inv.5, base_inv.6, base_inv.7,
      base_inv.8⟩,
    by decide +kernel, by decide +kernel, by decide +kernel⟩

end Sys2Proof.Tests
end

section
/-! Proofs. What every command and every host-side action keeps, with the invariant of the block (O57) and
the progress of a dutiful host (O59); then plain host memory (O53), the single-bit commands (O11, O19) and
the reversal of the bits of each byte (O29). -/

namespace Sys2Proof.Machine

/-! ## What a command keeps -/

/-- The invariant while a command executes: `State.Inv` without its clauses on BUSY and on a race, which
say that no command is in progress. -/
structure State.Sound (s : State) : Prop where
  memCanonical : s.mem.wf = true
  memInSpace : ∀ cell ∈ s.mem, cell.1 < s.params.addrSpace
  winLenBound : s.winLen.toNat < Config.maxLen
  winBaseBound : s.winBase.toNat < s.params.addrSpace
  unboundEmpty : s.bound = false → s.winBase = 0 ∧ s.winLen = 0
  errProduced : s.err ≠ .notSupported

theorem State.inv_iff {s : State} : s.Inv ↔ s.Sound ∧ s.busy = false ∧ s.raced = [] :=
  ⟨fun h => ⟨{ h with }, h.notBusy, h.noRace⟩,
    fun ⟨h, notBusy, noRace⟩ => { h with notBusy, noRace }⟩

/-- A piece of a command's work: the parameters, BUSY and the race are kept, and a sound state is left
sound. -/
structure Preserves (s t : State) : Prop where
  params : t.params = s.params
  busy : t.busy = s.busy
  raced : t.raced = s.raced
  sound : s.Sound → t.Sound

theorem Preserves.refl (s : State) : Preserves s s := ⟨rfl, rfl, rfl, id⟩

theorem Preserves.trans {s t u : State} (h : Preserves s t) (h' : Preserves t u) : Preserves s u :=
  ⟨h'.params.trans h.params, h'.busy.trans h.busy, h'.raced.trans h.raced, h'.sound ∘ h.sound⟩

theorem Preserves.inv {s t : State} (h : Preserves s t) (hi : s.Inv) : t.Inv := by
  obtain ⟨hs, hb, hr⟩ := State.inv_iff.mp hi
  exact State.inv_iff.mpr ⟨h.sound hs, h.busy.trans hb, h.raced.trans hr⟩

theorem preserves_succeed (s : State) : Preserves s (succeed s) :=
  ⟨rfl, rfl, rfl, fun h => { h with errProduced := ResultCode.noConfusion }⟩

/-- A fault taken with any code that is produced (R390). -/
theorem preserves_raise (s : State) {c : ResultCode} (hc : c ≠ .notSupported) :
    Preserves s (raise s c) :=
  ⟨rfl, rfl, rfl, fun h => { h with errProduced := hc }⟩

theorem preserves_setRdata (s : State) (v : Word64) : Preserves s (s.setRdata v) :=
  ⟨rfl, rfl, rfl, fun h => { h with }⟩

theorem preserves_setScalar (s : State) (v : Word64) : Preserves s (s.setScalar v) :=
  ⟨rfl, rfl, rfl, fun h => { h with }⟩

theorem preserves_setPos (s : State) (v : Word32) : Preserves s (s.setPos v) :=
  ⟨rfl, rfl, rfl, fun h => { h with }⟩

theorem preserves_setHostData (s : State) (v : Word32) : Preserves s (s.setHostData v) :=
  ⟨rfl, rfl, rfl, fun h => { h with }⟩

theorem preserves_setWindow (s : State) {base : Word64} {len : Word32}
    (hbase : base.toNat < s.params.addrSpace) (hlen : len.toNat < Config.maxLen) :
    Preserves s (s.setWindow base len) :=
  ⟨rfl, rfl, rfl, fun h => { h with
    winLenBound := hlen, winBaseBound := hbase, unboundEmpty := Bool.noConfusion }⟩

/-- Writes inside the address space only leave window memory canonical and inside it. -/
theorem State.Sound.of_keepsOutside {s : State} (h : s.Sound) {addrs : List Nat} {m : Memory}
    (hK : KeepsOutside s addrs m) (ha : ∀ a ∈ addrs, a < s.params.addrSpace) (f : Nat) :
    State.Sound { s with mem := m, freeCount := f } :=
  { h with
    memCanonical := hK.canonical h.memCanonical
    memInSpace := fun c hc => (hK.listed c hc).elim (h.memInSpace c) (ha c.1) }

theorem lt_of_mem_spanAddrs {s : State} {a k x : Nat} (h : x ∈ spanAddrs s a k) :
    x < s.params.addrSpace := by
  obtain ⟨j, -, rfl⟩ := mem_spanAddrs.mp h
  exact winAddr_lt s _

theorem preserves_scramble (s : State) {addrs : List Nat} (ha : ∀ a ∈ addrs, a < s.params.addrSpace) :
    Preserves s (scramble s addrs) := by
  obtain ⟨m, e, hK⟩ := scramble_eq s addrs
  rw [e]
  exact ⟨rfl, rfl, rfl, fun h => h.of_keepsOutside hK ha _⟩

theorem preserves_writeBack (s : State) (a : Nat) (bytes : List Byte) :
    Preserves s (writeBack s a bytes) := by
  obtain ⟨m, f, e, hK, -⟩ := writeBack_eq s a bytes
  rw [e]
  exact ⟨rfl, rfl, rfl, fun h => h.of_keepsOutside hK (fun _ => lt_of_mem_spanAddrs) f⟩

/-- R171 raises a code that is produced (R390). -/
theorem checkWindow_produced {s : State} {B n : Int} {W : Nat} {c : ResultCode}
    (h : checkWindow s B n W = some c) : c ≠ .notSupported := by
  rcases checkWindow_eq_some h with ⟨-, rfl⟩ | ⟨-, rfl⟩ <;> exact ResultCode.noConfusion

/-- R290 raises a code that is produced (R390). -/
theorem indexBit_produced {s : State} {B : Int} {c : ResultCode} (h : indexBit s B = some c) :
    c ≠ .notSupported := by
  rcases indexBit_eq_some h with ⟨-, rfl⟩ | ⟨-, -, rfl⟩ <;> exact ResultCode.noConfusion

theorem preserves_busError (s : State) : Preserves s (raise s .busError) :=
  preserves_raise s ResultCode.noConfusion

theorem preserves_readField (w : WidthClass) (g : Sign) (o : Order) (B : Int) (s : State) :
    Preserves s (readField w g o B s) := by
  rcases readField_cases w g o B s with ⟨c, hc, e⟩ | ⟨-, -, e⟩ | ⟨-, -, e⟩ <;> rw [e]
  · exact preserves_raise s (checkWindow_produced hc)
  · exact preserves_busError s
  · exact (preserves_setRdata s _).trans (preserves_succeed _)

theorem preserves_writeField (w : WidthClass) (o : Order) (B : Int) (s : State) :
    Preserves s (writeField w o B s) := by
  rcases writeField_cases w o B s with ⟨c, hc, e⟩ | ⟨-, -, e⟩ | ⟨-, -, e⟩ <;> rw [e]
  · exact preserves_raise s (checkWindow_produced hc)
  · exact (preserves_scramble s fun _ => lt_of_mem_spanAddrs).trans (preserves_busError _)
  · exact (preserves_writeBack s _ _).trans (preserves_succeed _)

theorem preserves_readScalar (w : WidthClass) (g : Sign) (o : Order) (s : State) :
    Preserves s (readScalar w g o s) := by
  rcases readScalar_cases w g o s with ⟨-, e⟩ | ⟨-, e⟩ <;> rw [e]
  · exact preserves_raise s ResultCode.noConfusion
  · exact (preserves_setRdata s _).trans (preserves_succeed _)

theorem preserves_writeScalar (w : WidthClass) (o : Order) (s : State) :
    Preserves s (writeScalar w o s) := by
  rcases writeScalar_cases w o s with ⟨-, e⟩ | ⟨-, e⟩ <;> rw [e]
  · exact preserves_raise s ResultCode.noConfusion
  · exact (preserves_setScalar s _).trans (preserves_succeed _)

theorem preserves_readBitAt (o : Order) (B : Int) (s : State) : Preserves s (readBitAt o B s) := by
  rcases readBitAt_cases o B s with ⟨c, hc, e⟩ | ⟨-, -, e⟩ | ⟨-, -, e⟩ <;> rw [e]
  · exact preserves_raise s (indexBit_produced hc)
  · exact preserves_busError s
  · exact (preserves_setRdata s _).trans (preserves_succeed _)

theorem preserves_writeBitAt (o : Order) (B : Int) (s : State) : Preserves s (writeBitAt o B s) := by
  rcases writeBitAt_cases o B s with ⟨c, hc, e⟩ | ⟨-, -, e⟩ | ⟨-, -, e⟩ <;> rw [e]
  · exact preserves_raise s (indexBit_produced hc)
  · refine (preserves_scramble s fun a ha => ?_).trans (preserves_busError _)
    rw [List.mem_singleton.mp ha]
    exact winAddr_lt s _
  · exact (preserves_writeBack s _ _).trans (preserves_succeed _)

theorem preserves_advance (n : Word32) (s : State) : Preserves s (advance n s) := by
  by_cases h : s.err = .ok
  · rw [advance_of_ok n h]; exact preserves_setPos s _
  · rw [advance_of_fault n h]; exact .refl s

theorem preserves_seekTo (g : Origin) (s : State) : Preserves s (seekTo g s) := by
  rcases seekTo_cases g s with ⟨-, e⟩ | ⟨-, e⟩ <;> rw [e]
  · exact preserves_raise s ResultCode.noConfusion
  · exact (preserves_setPos s _).trans (preserves_succeed _)

/-- The base that BIND takes has ADDR_W bits (R49, R370). -/
theorem bindBase_lt (s : State) : (bindBase s).toNat < s.params.addrSpace := by
  rw [bindBase, trunc, BitVec.toNat_setWidth]
  exact Nat.lt_of_le_of_lt (Nat.mod_le _ _) (BitVec.isLt _)

theorem preserves_bindWindow (s : State) : Preserves s (bindWindow s) := by
  rcases bindWindow_cases s with ⟨-, e⟩ | ⟨hlen, e⟩ <;> rw [e]
  · exact preserves_raise s ResultCode.noConfusion
  · exact ((preserves_setWindow s (bindBase_lt s) hlen).trans (preserves_setPos _ 0)).trans
      (preserves_succeed _)

/-- Every command completes (R380), and keeps a sound state sound. -/
theorem exec_preserves (i : Instr) (s : State) : ∃ t, exec i s = .next t ∧ Preserves s t := by
  rcases instr_kinds i with ⟨w, g, o, k, rfl⟩ | ⟨w, g, o, k, rfl⟩ | ⟨o, rfl⟩ | ⟨o, rfl⟩ |
    ⟨w, g, o, rfl⟩ | ⟨w, g, o, rfl⟩ | ⟨o, rfl⟩ | ⟨o, rfl⟩ | ⟨g, rfl⟩ | rfl
  · cases k with
    | window => exact ⟨_, exec_readWindow w g o s, preserves_readField ..⟩
    | scalar => exact ⟨_, exec_readScalar w g o s, preserves_readScalar ..⟩
  · cases k with
    | window => exact ⟨_, exec_writeWindow w g o s, preserves_writeField ..⟩
    | scalar => exact ⟨_, exec_writeScalar w g o s, preserves_writeScalar ..⟩
  · exact ⟨_, exec_readBit o s, preserves_readBitAt ..⟩
  · exact ⟨_, exec_writeBit o s, preserves_writeBitAt ..⟩
  · exact ⟨_, exec_cursorRead w g o s, (preserves_readField ..).trans (preserves_advance ..)⟩
  · exact ⟨_, exec_cursorWrite w g o s, (preserves_writeField ..).trans (preserves_advance ..)⟩
  · exact ⟨_, exec_cursorReadBit o s, (preserves_readBitAt ..).trans (preserves_advance ..)⟩
  · exact ⟨_, exec_cursorWriteBit o s, (preserves_writeBitAt ..).trans (preserves_advance ..)⟩
  · exact ⟨_, exec_seek g s, preserves_seekTo g s⟩
  · exact ⟨_, exec_bind s, preserves_bindWindow s⟩

/-- Every command word, legal or not, completes (R380, R383), and keeps a sound state sound. -/
theorem runWord_preserves (c : Word32) (s : State) :
    ∃ t, runWord c s = .next t ∧ Preserves s t := by
  unfold runWord
  cases decode c with
  | ok i => exact exec_preserves i s
  | error e => exact ⟨_, rfl, preserves_raise s ResultCode.noConfusion⟩

/-! ## What each host-side action does to an idle block -/

/-- A CMD write runs the word: BUSY, set and cleared within it, shows in nothing (R40). -/
theorem issue_eq_runWord (c : Word32) {s : State} (hb : s.busy = false) : issue c s = runWord c s := by
  have hs : s.setBusy false = s := by rw [State.setBusy, ← hb]
  unfold issue runWord
  cases decode c with
  | ok i =>
    obtain ⟨t, e, h⟩ := exec_preserves i s
    have ht : t.setBusy false = t := by rw [State.setBusy, ← hb, ← h.busy]
    simp only [exec_setBusy, e, mapNext]
    exact congrArg _ ht
  | error e => exact congrArg (fun u => Host.Outcome.next (raise u .illegalCommand)) hs

/-- An idle block takes an aligned 32-bit write of CMD as the command written (R32, R34). -/
theorem hostStep_regWrite_cmd {s : State} {width : AccessWidth} (hb : s.busy = false)
    (hacc : definedAccess width cmdOffset = true) (data : Word32) :
    hostStep (.regWrite width cmdOffset data) s = runWord data s := by
  simp [hostStep, hostWrite, hb, hacc, issue_eq_runWord]

theorem hostStep_regWrite_of_ne {s : State} {width : AccessWidth} {offset : Nat}
    (hb : s.busy = false) (hacc : definedAccess width offset = true) (hne : offset ≠ cmdOffset)
    (data : Word32) :
    hostStep (.regWrite width offset data) s = .next (writeRegister s offset data) := by
  simp [hostStep, hostWrite, hb, hacc, hne]

theorem hostStep_regRead {s : State} {width : AccessWidth} {offset : Nat} (hb : s.busy = false)
    (hacc : definedAccess width offset = true) :
    hostStep (.regRead width offset) s = .next (s.setHostData (registerValue s offset)) := by
  simp [hostStep, hostRead, hb, hacc]

theorem hostStep_memWrite {s : State} {a : Nat} (hb : s.busy = false) (ha : a < s.params.addrSpace)
    (v : Byte) : hostStep (.memWrite a v) s = .next (s.setMem (s.mem.write a v)) := by
  simp [hostStep, hb, ha]

theorem hostStep_memRead {s : State} {a : Nat} (hb : s.busy = false) (ha : a < s.params.addrSpace) :
    hostStep (.memRead a) s = .next (s.setHostData ((s.mem.read a).setWidth 32)) := by
  simp [hostStep, hb, ha]

theorem hostStep_memWrite_outside {s : State} {a : Nat} (hb : s.busy = false)
    (ha : s.params.addrSpace ≤ a) (v : Byte) :
    hostStep (.memWrite a v) s = .fault .noSuchAddress := by
  simp [hostStep, hb, ha]

theorem hostStep_memRead_outside {s : State} {a : Nat} (hb : s.busy = false)
    (ha : s.params.addrSpace ≤ a) : hostStep (.memRead a) s = .fault .noSuchAddress := by
  simp [hostStep, hb, ha]

theorem hostStep_abandonedCommand {s : State} (hb : s.busy = false) (c : Word32) :
    hostStep (.abandonedCommand c) s = .next (abandon c s) := by
  simp [hostStep, hb]

theorem hostStep_racedCommand {s : State} {addrs : List Nat} (hb : s.busy = false)
    (ha : ∀ a ∈ addrs, a < s.params.addrSpace) (c : Word32) :
    hostStep (.racedCommand c addrs) s = issueRaced c addrs s := by
  have hin : addrs.any (s.params.addrSpace ≤ ·) = false := by simpa using ha
  simp [hostStep, hb, hin]

/-! ## What a host-side action keeps -/

theorem preserves_writeRegister (s : State) (offset : Nat) (v : Word32) :
    Preserves s (writeRegister s offset v) := by
  unfold writeRegister
  split <;> exact ⟨rfl, rfl, rfl, fun h => { h with }⟩

theorem preserves_memWrite (s : State) {a : Nat} (ha : a < s.params.addrSpace) (v : Byte) :
    Preserves s (s.setMem (s.mem.write a v)) := by
  have hK : KeepsOutside s [a] (s.mem.writeAll [(a, v)]) :=
    KeepsOutside.writeAll s fun c hc => by simp [List.mem_singleton.mp hc]
  exact ⟨rfl, rfl, rfl, fun h => h.of_keepsOutside hK (by simpa using ha) s.freeCount⟩

theorem lt_of_mem_fieldSpan {s : State} {w : WidthClass} {B : Int} {x : Nat}
    (h : x ∈ fieldSpan s w B) : x < s.params.addrSpace := by
  unfold fieldSpan at h
  split at h
  · cases h
  · exact lt_of_mem_spanAddrs h

theorem lt_of_mem_bitSpan {s : State} {B : Int} {x : Nat} (h : x ∈ bitSpan s B) :
    x < s.params.addrSpace := by
  unfold bitSpan at h
  split at h
  · cases h
  · rw [List.mem_singleton.mp h]; exact winAddr_lt s _

/-- A command's span lies in the address space (R18, R84). -/
theorem lt_of_mem_commandSpan {c : Word32} {s : State} {x : Nat} (h : x ∈ commandSpan c s) :
    x < s.params.addrSpace := by
  unfold commandSpan fieldsSpan at h
  split at h
  · split at h
    · split at h
      · exact lt_of_mem_fieldSpan h
      · cases h
    · split at h
      · exact lt_of_mem_fieldSpan h
      · cases h
    · exact lt_of_mem_bitSpan h
    · exact lt_of_mem_bitSpan h
    · exact lt_of_mem_fieldSpan h
    · exact lt_of_mem_fieldSpan h
    · exact lt_of_mem_bitSpan h
    · exact lt_of_mem_bitSpan h
    · cases h
  · cases h

/-- Reset (R420) of a sound state leaves the invariant: only window memory is kept, and it is sound. -/
theorem State.Sound.inv_blockReset {s : State} (h : s.Sound) : (blockReset s).Inv where
  memCanonical := h.memCanonical
  memInSpace := h.memInSpace
  winLenBound := Nat.two_pow_pos 28
  winBaseBound := Params.addrSpace_pos s.params
  unboundEmpty _ := ⟨rfl, rfl⟩
  notBusy := rfl
  noRace := rfl
  errProduced := ResultCode.noConfusion

/-- A raced command from an idle block completes, and the end of the race leaves the invariant
(R92(d)). -/
theorem issueRaced_inv (c : Word32) {addrs : List Nat} {s : State} (hi : s.Inv)
    (ha : ∀ a ∈ addrs, a < s.params.addrSpace) :
    ∃ t, issueRaced c addrs s = .next t ∧ t.Inv ∧ t.params = s.params := by
  obtain ⟨hs, hb, -⟩ := State.inv_iff.mp hi
  obtain ⟨u, e, hu⟩ := runWord_preserves c (s.setRaced addrs)
  have hu' : u.Sound := hu.sound { hs with }
  obtain ⟨m, f, em, hK⟩ := settleRace_eq s.winLen.toNat addrs u
  have hm := hu'.of_keepsOutside hK (by rw [hu.params]; exact ha) f
  refine ⟨_, by rw [issueRaced, issue_eq_runWord c (s := s.setRaced addrs) hb, e]; rfl, ?_⟩
  rw [em]
  exact ⟨State.inv_iff.mpr ⟨{ hm with }, hu.busy.trans hb, rfl⟩, hu.params⟩

/-- A host-side action that keeps the host's duties, done to a device that meets the invariant,
completes and leaves the invariant and the parameters. -/
theorem hostStep_of_dutiful {s : State} (hi : s.Inv) {act : HostAction}
    (hd : act.dutiful s.params = true) :
    ∃ t, hostStep act s = .next t ∧ t.Inv ∧ t.params = s.params := by
  obtain ⟨hs, hb, -⟩ := State.inv_iff.mp hi
  have of_preserves {t : State} (h : Preserves s t) : t.Inv ∧ t.params = s.params :=
    ⟨h.inv hi, h.params⟩
  cases act with
  | regWrite width offset data =>
    by_cases hcmd : offset = cmdOffset
    · subst hcmd
      obtain ⟨t, e, h⟩ := runWord_preserves data s
      exact ⟨t, (hostStep_regWrite_cmd hb hd data).trans e, of_preserves h⟩
    · exact ⟨_, hostStep_regWrite_of_ne hb hd hcmd data,
        of_preserves (preserves_writeRegister s offset data)⟩
  | regRead width offset =>
    exact ⟨_, hostStep_regRead hb hd, of_preserves (preserves_setHostData s _)⟩
  | memWrite a v =>
    have ha : a < s.params.addrSpace := of_decide_eq_true hd
    exact ⟨_, hostStep_memWrite hb ha v, of_preserves (preserves_memWrite s ha v)⟩
  | memRead a =>
    exact ⟨_, hostStep_memRead hb (of_decide_eq_true hd), of_preserves (preserves_setHostData s _)⟩
  | reset => exact ⟨_, rfl, hs.inv_blockReset, rfl⟩
  | abandonedCommand word =>
    have h := preserves_scramble s fun _ => lt_of_mem_commandSpan (c := word)
    exact ⟨_, hostStep_abandonedCommand hb word, (h.sound hs).inv_blockReset, h.params⟩
  | racedCommand word addrs =>
    have ha : ∀ a ∈ addrs, a < s.params.addrSpace := by simpa [HostAction.dutiful] using hd
    obtain ⟨t, e, h⟩ := issueRaced_inv word hi ha
    exact ⟨t, (hostStep_racedCommand hb ha word).trans e, h⟩
  | setPort p => exact ⟨_, rfl, of_preserves ⟨rfl, rfl, rfl, fun h => { h with }⟩⟩

/-- An action that breaks the host's duties stops the machine, so one that completes keeps them
(R10, R32). -/
theorem dutiful_of_hostStep_next {act : HostAction} {s t : State} (h : hostStep act s = .next t) :
    act.dutiful s.params = true := by
  by_contra hd
  cases act with
  | regWrite width offset data =>
    simp only [HostAction.dutiful] at hd
    cases hb : s.busy <;> simp [hostStep, hostWrite, hd, hb] at h
  | regRead width offset =>
    simp only [HostAction.dutiful] at hd
    simp only [hostStep, hostRead, hd] at h
    split at h <;> simp at h
  | memWrite a v =>
    have ha : s.params.addrSpace ≤ a := by simpa [HostAction.dutiful] using hd
    cases hb : s.busy <;> simp [hostStep, ha, hb] at h
  | memRead a =>
    have ha : s.params.addrSpace ≤ a := by simpa [HostAction.dutiful] using hd
    cases hb : s.busy <;> simp [hostStep, ha, hb] at h
  | racedCommand word addrs =>
    have ha : addrs.any (s.params.addrSpace ≤ ·) = true := by
      simpa [HostAction.dutiful] using hd
    cases hb : s.busy <;> simp only [hostStep, ha, hb] at h <;> cases h
  | reset | abandonedCommand _ | setPort _ => exact hd rfl

/-- Taking the next action off the queue leaves the invariant. -/
theorem State.Inv.withQueue {s : State} (h : s.Inv) (rest : List HostAction) :
    State.Inv { s with hostQueue := rest } := { h with }

theorem step_cons {s : State} {act : HostAction} {rest : List HostAction}
    (h : s.hostQueue = act :: rest) : step s = hostStep act { s with hostQueue := rest } := by
  rw [step, h]

/-! ## Obligations O57 and O59 -/

/-- Settles O57: a step that answers a next state is idle, or does an action that keeps the host's
duties. -/
theorem everyStepKeepsTheInvariant : Obligations.EveryStepKeepsTheInvariant := by
  intro s t hi h
  cases hq : s.hostQueue with
  | nil =>
    rw [step, hq] at h
    cases h
    exact ⟨hi, rfl⟩
  | cons act rest =>
    rw [step_cons hq] at h
    obtain ⟨u, hu, hinv⟩ := hostStep_of_dutiful (hi.withQueue rest) (dutiful_of_hostStep_next h)
    rw [h] at hu
    cases hu
    exact hinv

/-- Settles O59: a dutiful action completes from every state that meets the invariant. -/
theorem dutifulHostNeverStops : Obligations.DutifulHostNeverStops := by
  intro s act rest hi hq hd
  rw [step_cons hq]
  obtain ⟨t, h, -⟩ := hostStep_of_dutiful (hi.withQueue rest) (act := act) hd
  exact ⟨t, h⟩

/-! ## Host accesses to window memory: O53 -/

/-- Settles O53, by the laws of one memory write. -/
theorem hostMemoryIsPlain : Obligations.HostMemoryIsPlain := by
  intro s a v hb hm
  refine ⟨fun ha => ⟨⟨s.mem.write a v, ?_, Memory.wf_write hm a v, Memory.read_write_self hm a v,
    fun x hx => Memory.read_write_ne s.mem v hx⟩, ?_⟩, fun ha => ⟨?_, ?_⟩⟩
  · exact hostStep_memWrite hb ha v
  · exact hostStep_memRead hb ha
  · exact hostStep_memWrite_outside hb ha v
  · exact hostStep_memRead_outside hb ha

/-! ## Single-bit commands: O11 and O19 -/

/-- A stream bit of a window is the bit that its position names in the byte at its index (R22). -/
theorem streamBit_eq_bitInByte (byte : Nat → Byte) (o : Order) (p : Nat) :
    streamBit byte o p = (byte (p / 8)).getLsbD (bitInByte o (p % 8)) := by
  cases o <;> rfl

theorem bitInByte_lt (o : Order) {p : Nat} (h : p < 8) : bitInByte o p < 8 := by
  cases o <;> (simp only [bitInByte]; omega)

theorem bitInByte_inj (o : Order) {p q : Nat} (hp : p < 8) (hq : q < 8) :
    bitInByte o p = bitInByte o q ↔ p = q := by
  cases o with
  | lsb => rfl
  | msb => simp only [bitInByte]; omega

/-- The bit that RDBIT puts in RDATA (R291, R292). -/
theorem shiftedBit_eq_ite (b : Byte) (q : Nat) :
    ((b >>> q) &&& 1).setWidth 64 = if b.getLsbD q then (1 : Word64) else 0 := by
  have h : (b >>> q) &&& 1 = (BitVec.ofBool (b.getLsbD q)).setWidth 8 := by
    simpa using BitVec.and_one_eq_setWidth_ofBool_getLsbD (x := b >>> q)
  rw [h]
  cases b.getLsbD q <;> rfl

/-- The byte that a bit write at `B` writes back: the byte read, with the bit that `B` names replaced by
`WDATA[0]` (R293, R294). -/
def replacedByte (s : State) (o : Order) (B : Int) : Byte :=
  (winRead s (byteIndex B) &&& ~~~((1 : Byte) <<< bitInByte o (subOffset B))) |||
    ((BitVec.ofBool (wdataBit s)).setWidth 8 <<< bitInByte o (subOffset B))

theorem getLsbD_replacedByte (s : State) (o : Order) (B : Int) {r : Nat} (hr : r < 8) :
    (replacedByte s o B).getLsbD r =
      if r = bitInByte o (subOffset B) then wdataBit s else (winRead s (byteIndex B)).getLsbD r := by
  unfold replacedByte
  generalize bitInByte o (subOffset B) = q
  simp only [BitVec.getLsbD_or, BitVec.getLsbD_and, BitVec.getLsbD_not, BitVec.getLsbD_shiftLeft,
    BitVec.getLsbD_setWidth, BitVec.getLsbD_ofBool, hr]
  by_cases h : r = q
  · subst h; simp
  · by_cases hlt : r < q
    · simp [h, hlt]
    · have : r - q ≠ 0 := by omega
      simp [h, hlt, this]

/-- The stream bits of the replaced byte: the one at `B` is `WDATA[0]`, the others are kept (R151). -/
theorem streamBit_replacedByte (s : State) (o : Order) {B : Int} {p : Nat} (hp : p / 8 = byteIndex B) :
    streamBit (fun _ => replacedByte s o B) o p =
      if p = B.toNat then wdataBit s else streamBit (winRead s) o p := by
  have hp8 : p % 8 < 8 := Nat.mod_lt p (by decide)
  have hB8 : subOffset B < 8 := Nat.lt_succ_of_le (subOffset_le B)
  have hat : p = B.toNat ↔ p % 8 = subOffset B := by have := byteIndex_subOffset B; omega
  rw [streamBit_eq_bitInByte, streamBit_eq_bitInByte, hp,
    getLsbD_replacedByte _ _ _ (bitInByte_lt o hp8)]
  simp only [bitInByte_inj o hp8 hB8, hat]

/-- A legal bit write with no port error writes back the one byte at its index (R293, R294). -/
theorem BitLegal.writeBitAt_eq {s : State} {B : Int} (hl : BitLegal s B)
    (hp : PortWrites s [winAddr s (byteIndex B)]) (o : Order) :
    writeBitAt o B s = succeed (writeBack s (byteIndex B) [replacedByte s o B]) := by
  rcases writeBitAt_cases o B s with ⟨c, hc, -⟩ | ⟨-, herr, -⟩ | ⟨-, -, h⟩
  · rw [indexBit_eq_none.mpr hl] at hc; cases hc
  · rw [writeErrs_eq_false.mpr hp] at herr; cases herr
  · exact h

/-- A legal bit read with no port error puts its stream bit in RDATA (R291, R292). -/
theorem BitLegal.readBitAt_eq {s : State} {B : Int} (hl : BitLegal s B)
    (hp : PortReads s [winAddr s (byteIndex B)]) (o : Order) :
    readBitAt o B s =
      succeed (s.setRdata (if streamBit (winRead s) o B.toNat then 1 else 0)) := by
  rcases readBitAt_cases o B s with ⟨c, hc, -⟩ | ⟨-, herr, -⟩ | ⟨-, -, h⟩
  · rw [indexBit_eq_none.mpr hl] at hc; cases hc
  · exact absurd herr (hp _ List.mem_cons_self)
  · rw [h, shiftedBit_eq_ite, streamBit_eq_bitInByte]
    rfl

/-- The write-back of the replaced byte changes window memory only, at one address, and there it sets
the one stream bit (R151). -/
theorem writeBack_replacedByte {s : State} (hm : s.mem.wf = true) (o : Order) (B : Int) :
    ∃ m, writeBack s (byteIndex B) [replacedByte s o B] = s.setMem m ∧ m.wf = true ∧
      (∀ p, p / 8 = byteIndex B → streamBit (heldByte (s.setMem m)) o p =
        if p = B.toNat then wdataBit s else streamBit (winRead s) o p) ∧
      ∀ x, x ≠ winAddr s (byteIndex B) → m.read x = s.mem.read x := by
  have hk : [replacedByte s o B].length ≤ s.params.addrSpace := Params.addrSpace_pos _
  obtain ⟨m, f, hw, hK, hf⟩ := writeBack_eq s (byteIndex B) [replacedByte s o B]
  rw [hf hk] at hw
  refine ⟨m, hw, hK.canonical hm, fun p hp => ?_,
    fun x hx => hK.outside x (by simpa [spanAddrs] using hx)⟩
  have hheld : heldByte (s.setMem m) (byteIndex B) = replacedByte s o B := by
    have := heldByte_writeBack hm hk (a := byteIndex B) Nat.one_pos
    rw [hw] at this
    exact this
  rw [← streamBit_replacedByte s o hp, streamBit_eq_bitInByte, hp, hheld, streamBit_eq_bitInByte]

/-- Settles O11, by what a legal bit read puts in RDATA. -/
theorem bitReadReturnsTheStreamBit : Obligations.BitReadReturnsTheStreamBit := by
  intro o s hl hp
  rw [exec_readBit, hl.readBitAt_eq hp]
  rfl

/-- Settles O19, by what the write-back of one replaced byte does. -/
theorem bitWriteSetsExactlyOneBit : Obligations.BitWriteSetsExactlyOneBit := by
  intro o s hm hl hp
  obtain ⟨m, hw, hwf, hbit, hframe⟩ := writeBack_replacedByte hm o (sint s.offset)
  refine ⟨m, ?_, hwf, hbit, hframe⟩
  rw [exec_writeBit, hl.writeBitAt_eq hp, hw]
  rfl

/-! ## Bit and byte reversal: O29 -/

/-- Settles O29, bit by bit: both sides put at place `i` the bit that stream position `i` names in MSB
order. -/
theorem byteBitReversalIsTheComposition : Obligations.ByteBitReversalIsTheComposition := by
  intro k x
  have hk : 8 ∣ 8 * k := Nat.dvd_mul_right 8 k
  apply BitVec.eq_of_getLsbD_eq
  intro i hi
  have hj : 8 * (8 * k / 8 - 1 - i / 8) + i % 8 < 8 * k := by omega
  have e : 8 * k - 1 - (8 * (8 * k / 8 - 1 - i / 8) + i % 8) = msbPlace i := by
    unfold msbPlace; omega
  rw [getLsbD_revByteBits hk, getLsbD_revBytes hk, revBits, BitVec.getLsbD_reverse, BitVec.getMsbD, e]
  simp only [hj, decide_true, Bool.true_and]

end Sys2Proof.Machine
end

section
/-! Proofs. What the decoder's answer says of a word, and how every command ends, said once. -/

namespace Sys2Proof

/-! ## A decoded word is the command's own word -/

/-- `ORD` of an order (R103). -/
def Order.bit : Order → BitVec 1
  | .lsb => 0
  | .msb => 1

/-- `WID` of a width class (R104). -/
def WidthClass.bits : WidthClass → BitVec 3
  | .w8 => 0
  | .w16 => 1
  | .w32 => 2
  | .w64 => 3
  | .ptr => 4

/-- `SGN` of a signedness (R105). -/
def Sign.bit : Sign → BitVec 1
  | .unsigned => 0
  | .signed => 1

/-- `SRC` of an operand kind (R106). -/
def Source.bit : Source → BitVec 1
  | .window => 0
  | .scalar => 1

/-- `ORG` of a seek origin (R107). -/
def Origin.bits : Origin → BitVec 2
  | .begin => 0
  | .current => 1
  | .fromEnd => 2

@[simp] theorem Order.bit_ofBit : ∀ b : BitVec 1, (Order.ofBit b).bit = b := by decide

@[simp] theorem Sign.bit_ofBit : ∀ b : BitVec 1, (Sign.ofBit b).bit = b := by decide

@[simp] theorem Source.bit_ofBit : ∀ b : BitVec 1, (Source.ofBit b).bit = b := by decide

theorem WidthClass.bits_ofBits : ∀ b : BitVec 3, b.toNat ≤ 4 → (WidthClass.ofBits b).bits = b := by
  decide

theorem Origin.bits_ofBits : ∀ b : BitVec 2, b ≠ 3 → (Origin.ofBits b).bits = b := by decide

@[simp] theorem fields_read (w : WidthClass) (g : Sign) (o : Order) (k : Source) :
    (Instr.read w g o k).fields = ⟨1, o.bit, w.bits, g.bit, k.bit, 0, 0⟩ := by
  cases w <;> cases g <;> cases o <;> cases k <;> rfl

@[simp] theorem fields_write (w : WidthClass) (g : Sign) (o : Order) (k : Source) :
    (Instr.write w g o k).fields = ⟨2, o.bit, w.bits, g.bit, k.bit, 0, 0⟩ := by
  cases w <;> cases g <;> cases o <;> cases k <;> rfl

@[simp] theorem fields_readBit (o : Order) : (Instr.readBit o).fields = ⟨3, o.bit, 0, 0, 0, 0, 0⟩ := by
  cases o <;> rfl

@[simp] theorem fields_writeBit (o : Order) :
    (Instr.writeBit o).fields = ⟨4, o.bit, 0, 0, 0, 0, 0⟩ := by
  cases o <;> rfl

@[simp] theorem fields_cursorRead (w : WidthClass) (g : Sign) (o : Order) :
    (Instr.cursorRead w g o).fields = ⟨5, o.bit, w.bits, g.bit, 0, 0, 0⟩ := by
  cases w <;> cases g <;> cases o <;> rfl

@[simp] theorem fields_cursorWrite (w : WidthClass) (g : Sign) (o : Order) :
    (Instr.cursorWrite w g o).fields = ⟨6, o.bit, w.bits, g.bit, 0, 0, 0⟩ := by
  cases w <;> cases g <;> cases o <;> rfl

@[simp] theorem fields_cursorReadBit (o : Order) :
    (Instr.cursorReadBit o).fields = ⟨7, o.bit, 0, 0, 0, 0, 0⟩ := by
  cases o <;> rfl

@[simp] theorem fields_cursorWriteBit (o : Order) :
    (Instr.cursorWriteBit o).fields = ⟨8, o.bit, 0, 0, 0, 0, 0⟩ := by
  cases o <;> rfl

@[simp] theorem fields_seek (g : Origin) : (Instr.seek g).fields = ⟨9, 0, 0, 0, 0, g.bits, 0⟩ := by
  cases g <;> rfl

@[simp] theorem fields_bind : Instr.bind.fields = ⟨10, 0, 0, 0, 0, 0, 0⟩ := rfl

/-- The fields of a word make up the word (R101). -/
theorem toWord_ofWord (c : Word32) : (Fields.ofWord c).toWord = c := by
  apply BitVec.eq_of_getLsbD_eq
  intro i hi
  simp only [Fields.toWord, Fields.ofWord, BitVec.getLsbD_or, BitVec.getLsbD_shiftLeft,
    BitVec.getLsbD_setWidth, BitVec.getLsbD_extractLsb']
  grind

/-- The checks of R110 pass on the legal combinations of R109 only. -/
theorem wf_of_check_eq_none {f : Fields} (h : f.check = none) : f.wf = true := by
  unfold Fields.check at h
  simp only [Fields.wf]
  grind

/-- Legal fields are those of the command they are dispatched to (R102, R109). With OP fixed, the checks
leave 0 in every field the command has not, and no reserved WID or ORG. -/
theorem fields_of_dispatch {f : Fields} (hf : f.wf = true) {i : Instr} (h : f.dispatch = some i) :
    i.fields = f := by
  obtain ⟨op, ord, wid, sgn, src, org, rsv⟩ := f
  simp only [Fields.wf, Fields.reservedClear, Fields.widDefined, Fields.widSgnClear,
    Fields.srcAllowed, Fields.orgClear, Fields.seekOrgDefined, Fields.ordAllowed, Fields.multiBit,
    Bool.and_eq_true, beq_iff_eq] at hf
  simp only [Fields.dispatch] at h
  have hop : op = BitVec.ofNat 4 op.toNat := by simp
  split at h
  case h_11 => cases h
  all_goals
    rename_i e
    rw [e] at hop
    subst hop
    cases h
    simp at hf
    simp [hf, WidthClass.bits_ofBits, Origin.bits_ofBits]

/-- A legal word is the word of the command it decodes to (R110, R114). -/
theorem encode_of_decode {c : Word32} {i : Instr} (h : decode c = .ok i) : encode i = c := by
  simp only [decode] at h
  cases hc : (Fields.ofWord c).check with
  | some e => simp [hc] at h
  | none =>
    cases hd : (Fields.ofWord c).dispatch with
    | none => simp [hc, hd] at h
    | some j =>
      obtain rfl : j = i := by simpa [hc, hd] using h
      rw [encode, fields_of_dispatch (wf_of_check_eq_none hc) hd, toWord_ofWord]

namespace Machine

/-! ## How a command ends -/

/-- How a command on `s` ends (R380, R381, R386): with a fault raised before its accesses, with a port
error once `damaged` has come over the state, or well, once `done` has. -/
inductive Ends (s : State) (done damaged : State → Prop) : State → Prop where
  | fault {c : ResultCode} (hok : c ≠ .ok) (hbus : c ≠ .busError) : Ends s done damaged (raise s c)
  | busError {u : State} (h : damaged u) : Ends s done damaged (raise u .busError)
  | success {u : State} (h : done u) : Ends s done damaged (succeed u)

namespace Ends

variable {s t : State} {done damaged done' damaged' : State → Prop}

theorem mono (h : Ends s done damaged t) (hdone : ∀ u, done u → done' u)
    (hdamaged : ∀ u, damaged u → damaged' u) : Ends s done' damaged' t := by
  cases h with
  | fault hok hbus => exact .fault hok hbus
  | busError h => exact .busError (hdamaged _ h)
  | success h => exact .success (hdone _ h)

theorem done_of_ok (h : Ends s done damaged t) (hok : t.err = .ok) : ∃ u, done u ∧ t = succeed u := by
  cases h with
  | fault hc => exact absurd hok hc
  | busError => cases hok
  | success h => exact ⟨_, h, rfl⟩

/-- Memory after a command has each property that it had before and that the command's work leaves. -/
theorem mem_induction {P : Memory → Prop} (h : Ends s done damaged t) (hs : P s.mem)
    (hdone : ∀ u, done u → P u.mem) (hdamaged : ∀ u, damaged u → P u.mem) : P t.mem := by
  cases h with
  | fault => exact hs
  | busError h => exact (hdamaged _ h :)
  | success h => exact (hdone _ h :)

/-- STICKY is set by a fault and kept by a success (R41). -/
theorem sticky_eq (h : Ends s done damaged t) (hdone : ∀ u, done u → u.sticky = s.sticky) :
    t.sticky = (s.sticky || decide (t.err ≠ .ok)) := by
  cases h with
  | fault hok => simp [raise, hok]
  | busError => simp [raise]
  | success h => simp [succeed, hdone _ h]

end Ends

/-! ### What a command's work leaves behind -/

/-- `u` is `s` with another RDATA. -/
def RdataSet (s u : State) : Prop := ∃ v, u = s.setRdata v

/-- `u` is `s` with window memory written at the addresses only, and free values used. -/
def MemWritten (s : State) (addrs : List Nat) (u : State) : Prop :=
  ∃ m f, u = { s with mem := m, freeCount := f } ∧ ∀ x, x ∉ addrs → m.read x = s.mem.read x

/-- `u` is the advance of POS by `n` after `done` (R300). -/
def Advanced (n : Word32) (done : State → Prop) (u : State) : Prop :=
  ∃ v, done v ∧ u = v.setPos (v.pos + n)

/-- `u` is `s` after the work of a legal multi-bit read, or write, of class `w` at bit offset `B`. -/
def FieldRead (s : State) (w : WidthClass) (B : Int) (u : State) : Prop :=
  FieldLegal s w B ∧ RdataSet s u

@[inherit_doc FieldRead]
def FieldWritten (s : State) (w : WidthClass) (B : Int) (u : State) : Prop :=
  FieldLegal s w B ∧ MemWritten s (fieldAddrs s B) u

/-- `u` is `s` after the work of a legal single-bit read, or write, at bit offset `B`. -/
def BitRead (s : State) (B : Int) (u : State) : Prop := BitLegal s B ∧ RdataSet s u

@[inherit_doc BitRead]
def BitWritten (s : State) (B : Int) (u : State) : Prop :=
  BitLegal s B ∧ MemWritten s [winAddr s (byteIndex B)] u

theorem memWritten_scramble (s : State) (addrs : List Nat) : MemWritten s addrs (scramble s addrs) := by
  obtain ⟨m, e, hK⟩ := scramble_eq s addrs
  exact ⟨m, _, e, hK.outside⟩

theorem memWritten_writeBack (s : State) (a : Nat) (bytes : List Byte) :
    MemWritten s (spanAddrs s a bytes.length) (writeBack s a bytes) := by
  obtain ⟨m, f, e, hK, -⟩ := writeBack_eq s a bytes
  exact ⟨m, f, e, hK.outside⟩

/-! ### How each operation ends -/

theorem checkWindow_code {s : State} {B n : Int} {W : Nat} {c : ResultCode}
    (h : checkWindow s B n W = some c) : c ≠ .ok ∧ c ≠ .busError := by
  rcases checkWindow_eq_some h with ⟨-, rfl⟩ | ⟨-, rfl⟩ <;> decide

theorem indexBit_code {s : State} {B : Int} {c : ResultCode} (h : indexBit s B = some c) :
    c ≠ .ok ∧ c ≠ .busError := by
  rcases indexBit_eq_some h with ⟨-, rfl⟩ | ⟨-, -, rfl⟩ <;> decide

theorem readField_ends (w : WidthClass) (g : Sign) (o : Order) (B : Int) (s : State) :
    Ends s (FieldRead s w B) (· = s) (readField w g o B s) := by
  rcases readField_cases w g o B s with ⟨c, hc, e⟩ | ⟨-, -, e⟩ | ⟨hl, -, e⟩ <;> rw [e]
  · exact .fault (checkWindow_code hc).1 (checkWindow_code hc).2
  · exact .busError rfl
  · exact .success ⟨hl, _, rfl⟩

theorem writeField_ends (w : WidthClass) (o : Order) (B : Int) (s : State) :
    Ends s (FieldWritten s w B) (FieldWritten s w B) (writeField w o B s) := by
  rcases writeField_cases w o B s with ⟨c, hc, e⟩ | ⟨hl, -, e⟩ | ⟨hl, -, e⟩ <;> rw [e]
  · exact .fault (checkWindow_code hc).1 (checkWindow_code hc).2
  · exact .busError ⟨hl, memWritten_scramble s _⟩
  · refine .success ⟨hl, ?_⟩
    have h := memWritten_writeBack s (byteIndex B) (fieldWrite o (widthBits s.params w) (subOffset B)
      (trunc s.wdata (sint s.count).toNat) (sint s.count).toNat
      (stageBytes s (byteIndex B) (fieldBytes s B)))
    rwa [length_merged] at h

theorem readScalar_ends (w : WidthClass) (g : Sign) (o : Order) (s : State) :
    Ends s (RdataSet s) (· = s) (readScalar w g o s) := by
  rcases readScalar_cases w g o s with ⟨-, e⟩ | ⟨-, e⟩ <;> rw [e]
  · exact .fault nofun nofun
  · exact .success ⟨_, rfl⟩

/-- The bits of SCALAR with its low `W` bits replaced (R46, R233). -/
theorem getLsbD_replaceScalar (x : Word64) {W : Nat} (hW : W ≤ 64) (v : BitVec W) (i : Nat) :
    (replaceScalar x W v).getLsbD i = if i < W then v.getLsbD i else x.getLsbD i := by
  simp only [replaceScalar, BitVec.getLsbD_or, BitVec.getLsbD_shiftLeft, BitVec.getLsbD_ushiftRight,
    BitVec.getLsbD_setWidth]
  by_cases hi : i < W
  · simp [hi, show i < 64 by omega]
  · have hv : v.getLsbD i = false := BitVec.getLsbD_of_ge v i (by omega)
    have hx : 64 ≤ i → x.getLsbD i = false := BitVec.getLsbD_of_ge x i
    grind

/-- `u` is `s` with SCALAR written below the width of its class (R46). -/
def ScalarWritten (s : State) (w : WidthClass) (u : State) : Prop :=
  ∃ v, u = s.setScalar v ∧ ∀ i, widthBits s.params w ≤ i → v.getLsbD i = s.scalar.getLsbD i

theorem writeScalar_ends (w : WidthClass) (o : Order) (s : State) :
    Ends s (ScalarWritten s w) (· = s) (writeScalar w o s) := by
  rcases writeScalar_cases w o s with ⟨-, e⟩ | ⟨-, e⟩ <;> rw [e]
  · exact .fault nofun nofun
  · refine .success ⟨_, rfl, fun i hi => ?_⟩
    rw [getLsbD_replaceScalar _ (isWidth_widthBits s.params w).le, if_neg (Nat.not_lt.mpr hi)]

theorem readBitAt_ends (o : Order) (B : Int) (s : State) :
    Ends s (BitRead s B) (· = s) (readBitAt o B s) := by
  rcases readBitAt_cases o B s with ⟨c, hc, e⟩ | ⟨-, -, e⟩ | ⟨hl, -, e⟩ <;> rw [e]
  · exact .fault (indexBit_code hc).1 (indexBit_code hc).2
  · exact .busError rfl
  · exact .success ⟨hl, _, rfl⟩

theorem writeBitAt_ends (o : Order) (B : Int) (s : State) :
    Ends s (BitWritten s B) (BitWritten s B) (writeBitAt o B s) := by
  rcases writeBitAt_cases o B s with ⟨c, hc, e⟩ | ⟨hl, -, e⟩ | ⟨hl, -, e⟩ <;> rw [e]
  · exact .fault (indexBit_code hc).1 (indexBit_code hc).2
  · exact .busError ⟨hl, memWritten_scramble s _⟩
  · exact .success ⟨hl, memWritten_writeBack s (byteIndex B) [_]⟩

/-- The advance follows a success and no fault (R300). -/
theorem Ends.advance {s t : State} {done damaged : State → Prop} (h : Ends s done damaged t)
    (n : Word32) : Ends s (Advanced n done) damaged (advance n t) := by
  cases h with
  | fault hok hbus => rw [advance_of_fault n hok]; exact .fault hok hbus
  | busError h => rw [advance_of_fault n ResultCode.noConfusion]; exact .busError h
  | @success u h => rw [advance_of_ok n rfl]; exact .success (u := u.setPos (u.pos + n)) ⟨u, h, rfl⟩

theorem seekTo_ends (g : Origin) (s : State) :
    Ends s (fun u => ∃ v, u = s.setPos v) (· = s) (seekTo g s) := by
  rcases seekTo_cases g s with ⟨-, e⟩ | ⟨-, e⟩ <;> rw [e]
  · exact .fault nofun nofun
  · exact .success ⟨_, rfl⟩

theorem bindWindow_ends (s : State) :
    Ends s (fun u => ∃ base len, u = (s.setWindow base len).setPos 0) (· = s) (bindWindow s) := by
  rcases bindWindow_cases s with ⟨-, e⟩ | ⟨-, e⟩ <;> rw [e]
  · exact .fault nofun nofun
  · exact .success ⟨_, _, rfl⟩

/-! ### How each kind of command ends -/

section

variable {w : WidthClass} {g : Sign} {o : Order} {k : Source} {d : Origin} {s t : State}

theorem ends_of_read (h : exec (Instr.read w g o k) s = .next t) : Ends s (RdataSet s) (· = s) t := by
  cases k with
  | window =>
    rw [exec_readWindow] at h
    cases h
    exact (readField_ends w g o _ s).mono (fun _ hu => hu.2) fun _ hu => hu
  | scalar =>
    rw [exec_readScalar] at h
    cases h
    exact readScalar_ends w g o s

theorem ends_of_writeWindow (h : exec (Instr.write w g o .window) s = .next t) :
    Ends s (FieldWritten s w (sint s.offset)) (FieldWritten s w (sint s.offset)) t := by
  rw [exec_writeWindow] at h
  cases h
  exact writeField_ends w o _ s

theorem ends_of_writeScalar (h : exec (Instr.write w g o .scalar) s = .next t) :
    Ends s (ScalarWritten s w) (· = s) t := by
  rw [exec_writeScalar] at h
  cases h
  exact writeScalar_ends w o s

theorem ends_of_readBit (h : exec (Instr.readBit o) s = .next t) :
    Ends s (RdataSet s) (· = s) t := by
  rw [exec_readBit] at h
  cases h
  exact (readBitAt_ends o _ s).mono (fun _ hu => hu.2) fun _ hu => hu

theorem ends_of_writeBit (h : exec (Instr.writeBit o) s = .next t) :
    Ends s (BitWritten s (sint s.offset)) (BitWritten s (sint s.offset)) t := by
  rw [exec_writeBit] at h
  cases h
  exact writeBitAt_ends o _ s

theorem ends_of_cursorRead (h : exec (Instr.cursorRead w g o) s = .next t) :
    Ends s (Advanced s.count (FieldRead s w (sint s.pos))) (· = s) t := by
  rw [exec_cursorRead] at h
  cases h
  exact (readField_ends w g o _ s).advance s.count

theorem ends_of_cursorWrite (h : exec (Instr.cursorWrite w g o) s = .next t) :
    Ends s (Advanced s.count (FieldWritten s w (sint s.pos)))
      (FieldWritten s w (sint s.pos)) t := by
  rw [exec_cursorWrite] at h
  cases h
  exact (writeField_ends w o _ s).advance s.count

theorem ends_of_cursorReadBit (h : exec (Instr.cursorReadBit o) s = .next t) :
    Ends s (Advanced 1 (BitRead s (sint s.pos))) (· = s) t := by
  rw [exec_cursorReadBit] at h
  cases h
  exact (readBitAt_ends o _ s).advance 1

theorem ends_of_cursorWriteBit (h : exec (Instr.cursorWriteBit o) s = .next t) :
    Ends s (Advanced 1 (BitWritten s (sint s.pos))) (BitWritten s (sint s.pos)) t := by
  rw [exec_cursorWriteBit] at h
  cases h
  exact (writeBitAt_ends o _ s).advance 1

theorem ends_of_seek (h : exec (Instr.seek d) s = .next t) :
    Ends s (fun u => ∃ v, u = s.setPos v) (· = s) t := by
  rw [exec_seek] at h
  cases h
  exact seekTo_ends d s

theorem ends_of_bind (h : exec .bind s = .next t) :
    Ends s (fun u => ∃ base len, u = (s.setWindow base len).setPos 0) (· = s) t := by
  rw [exec_bind] at h
  cases h
  exact bindWindow_ends s

end

end Machine

end Sys2Proof
end

section
/-! Proofs. What every command may do and what it keeps (O43, O45, O41); the advance of a cursor (O31);
scalar writes (O18). -/

namespace Sys2Proof.Machine

/-! ## What every command may do -/

/-- The bytes at which `u` differs from `s` are in the window of `s` (R85). -/
def ChangesInWindow (s u : State) : Prop :=
  ∀ x, u.mem.read x ≠ s.mem.read x → s.bound = true ∧ ∃ j < s.winLen.toNat, x = winAddr s j

/-- What the work of a command that succeeds may do: keep STICKY, and change bytes of the window. -/
def MayDo (s u : State) : Prop := u.sticky = s.sticky ∧ ChangesInWindow s u

/-- What a port error may do beside ERR and STICKY: change bytes of the window, with free values
used (R386). -/
def MayDamage (s u : State) : Prop :=
  (∃ m f, u = { s with mem := m, freeCount := f }) ∧ ChangesInWindow s u

theorem mayDo_of_mem_eq {s u : State} (hsticky : u.sticky = s.sticky) (hmem : u.mem = s.mem) :
    MayDo s u :=
  ⟨hsticky, fun _ hx => absurd (by rw [hmem]) hx⟩

theorem MayDamage.mayDo {s u : State} (h : MayDamage s u) : MayDo s u := by
  obtain ⟨⟨m, f, rfl⟩, hw⟩ := h
  exact ⟨rfl, hw⟩

theorem mayDamage_of_eq {s u : State} (h : u = s) : MayDamage s u := by
  subst h
  exact ⟨⟨_, _, rfl⟩, (mayDo_of_mem_eq rfl rfl).2⟩

theorem RdataSet.mayDo {s u : State} (h : RdataSet s u) : MayDo s u := by
  obtain ⟨v, rfl⟩ := h
  exact mayDo_of_mem_eq rfl rfl

/-- Writes to addresses of window indices stay in the window. -/
theorem MemWritten.mayDamage {s u : State} {addrs : List Nat} (h : MemWritten s addrs u)
    (hin : ∀ x ∈ addrs, s.bound = true ∧ ∃ j < s.winLen.toNat, x = winAddr s j) : MayDamage s u := by
  obtain ⟨m, f, rfl, hout⟩ := h
  exact ⟨⟨m, f, rfl⟩, fun x hx => hin x (by_contra fun hn => hx (hout x hn))⟩

/-- R85: the span of a legal multi-bit command is in the window. -/
theorem FieldWritten.mayDamage {s u : State} {w : WidthClass} {B : Int} (h : FieldWritten s w B u) :
    MayDamage s u := by
  obtain ⟨hl, hm⟩ := h
  refine hm.mayDamage fun x hx => ⟨hl.bound, ?_⟩
  obtain ⟨j, hj, rfl⟩ := mem_spanAddrs.mp hx
  exact ⟨_, hl.index_lt hj, rfl⟩

/-- R85, R290: the byte of a legal single-bit command is in the window. -/
theorem BitWritten.mayDamage {s u : State} {B : Int} (h : BitWritten s B u) : MayDamage s u := by
  obtain ⟨⟨hb, h0, hlt⟩, hm⟩ := h
  refine hm.mayDamage fun x hx => ⟨hb, byteIndex B, ?_, List.mem_singleton.mp hx⟩
  unfold byteIndex
  omega

theorem Advanced.mono {n : Word32} {done done' : State → Prop} {u : State} (h : Advanced n done u)
    (hdone : ∀ v, done v → done' v) : Advanced n done' u := by
  obtain ⟨v, hv, rfl⟩ := h
  exact ⟨v, hdone v hv, rfl⟩

theorem Advanced.mayDo {n : Word32} {s u : State} (h : Advanced n (MayDo s) u) : MayDo s u := by
  obtain ⟨v, hv, rfl⟩ := h
  exact hv

/-- How every command ends (R54, R85, R381). -/
theorem ends_of_exec {i : Instr} {s t : State} (h : exec i s = .next t) :
    Ends s (MayDo s) (MayDamage s) t := by
  rcases instr_kinds i with ⟨w, g, o, k, rfl⟩ | ⟨w, g, o, k, rfl⟩ | ⟨o, rfl⟩ | ⟨o, rfl⟩ |
    ⟨w, g, o, rfl⟩ | ⟨w, g, o, rfl⟩ | ⟨o, rfl⟩ | ⟨o, rfl⟩ | ⟨g, rfl⟩ | rfl
  · exact (ends_of_read h).mono (fun _ => RdataSet.mayDo) fun _ => mayDamage_of_eq
  · cases k with
    | window =>
      exact (ends_of_writeWindow h).mono (fun _ hu => hu.mayDamage.mayDo) fun _ hu => hu.mayDamage
    | scalar =>
      refine (ends_of_writeScalar h).mono (fun u hu => ?_) fun _ => mayDamage_of_eq
      obtain ⟨v, rfl, -⟩ := hu
      exact mayDo_of_mem_eq rfl rfl
  · exact (ends_of_readBit h).mono (fun _ => RdataSet.mayDo) fun _ => mayDamage_of_eq
  · exact (ends_of_writeBit h).mono (fun _ hu => hu.mayDamage.mayDo) fun _ hu => hu.mayDamage
  · exact (ends_of_cursorRead h).mono (fun _ hu => (hu.mono fun _ hv => hv.2.mayDo).mayDo)
      fun _ => mayDamage_of_eq
  · exact (ends_of_cursorWrite h).mono (fun _ hu => (hu.mono fun _ hv => hv.mayDamage.mayDo).mayDo)
      fun _ hu => hu.mayDamage
  · exact (ends_of_cursorReadBit h).mono (fun _ hu => (hu.mono fun _ hv => hv.2.mayDo).mayDo)
      fun _ => mayDamage_of_eq
  · exact (ends_of_cursorWriteBit h).mono
      (fun _ hu => (hu.mono fun _ hv => hv.mayDamage.mayDo).mayDo) fun _ hu => hu.mayDamage
  · refine (ends_of_seek h).mono (fun u hu => ?_) fun _ => mayDamage_of_eq
    obtain ⟨v, rfl⟩ := hu
    exact mayDo_of_mem_eq rfl rfl
  · refine (ends_of_bind h).mono (fun u hu => ?_) fun _ => mayDamage_of_eq
    obtain ⟨base, len, rfl⟩ := hu
    exact mayDo_of_mem_eq rfl rfl

/-! ## The frame of each kind of end -/

section

variable {s t : State} {addrs : List Nat} {n : Word32} {w : WidthClass}

theorem Ends.eq_of_rdataSet (h : Ends s (RdataSet s) (· = s) t) :
    t = { s with rdata := t.rdata, err := t.err, sticky := t.sticky } := by
  rcases h with _ | ⟨rfl⟩ | ⟨⟨v, rfl⟩⟩ <;> rfl

theorem Ends.eq_of_advanced_rdataSet (h : Ends s (Advanced n (RdataSet s)) (· = s) t) :
    t = { s with rdata := t.rdata, pos := t.pos, err := t.err, sticky := t.sticky } := by
  rcases h with _ | ⟨rfl⟩ | ⟨⟨_, ⟨v, rfl⟩, rfl⟩⟩ <;> rfl

theorem Ends.eq_of_memWritten (h : Ends s (MemWritten s addrs) (MemWritten s addrs) t) :
    t = { s with mem := t.mem, freeCount := t.freeCount, err := t.err, sticky := t.sticky } ∧
      ∀ x, x ∉ addrs → t.mem.read x = s.mem.read x := by
  rcases h with _ | ⟨⟨m, f, rfl, hm⟩⟩ | ⟨⟨m, f, rfl, hm⟩⟩
  · exact ⟨rfl, fun _ _ => rfl⟩
  · exact ⟨rfl, hm⟩
  · exact ⟨rfl, hm⟩

theorem Ends.eq_of_advanced_memWritten
    (h : Ends s (Advanced n (MemWritten s addrs)) (MemWritten s addrs) t) :
    t = { s with
        mem := t.mem, freeCount := t.freeCount, pos := t.pos, err := t.err, sticky := t.sticky } ∧
      ∀ x, x ∉ addrs → t.mem.read x = s.mem.read x := by
  rcases h with _ | ⟨⟨m, f, rfl, hm⟩⟩ | ⟨⟨_, ⟨m, f, rfl, hm⟩, rfl⟩⟩
  · exact ⟨rfl, fun _ _ => rfl⟩
  · exact ⟨rfl, hm⟩
  · exact ⟨rfl, hm⟩

theorem Ends.eq_of_scalarWritten (h : Ends s (ScalarWritten s w) (· = s) t) :
    t = { s with scalar := t.scalar, err := t.err, sticky := t.sticky } ∧
      ∀ i, widthBits s.params w ≤ i → t.scalar.getLsbD i = s.scalar.getLsbD i := by
  rcases h with _ | ⟨rfl⟩ | ⟨⟨v, rfl, hv⟩⟩
  · exact ⟨rfl, fun _ _ => rfl⟩
  · exact ⟨rfl, fun _ _ => rfl⟩
  · exact ⟨rfl, hv⟩

theorem Ends.eq_of_seek (h : Ends s (fun u => ∃ v, u = s.setPos v) (· = s) t) :
    t = { s with pos := t.pos, err := t.err, sticky := t.sticky } := by
  rcases h with _ | ⟨rfl⟩ | ⟨⟨v, rfl⟩⟩ <;> rfl

theorem Ends.eq_of_bind
    (h : Ends s (fun u => ∃ base len, u = (s.setWindow base len).setPos 0) (· = s) t) :
    t = { s with
      bound := t.bound, winBase := t.winBase, winLen := t.winLen, pos := t.pos
      err := t.err, sticky := t.sticky } := by
  rcases h with _ | ⟨rfl⟩ | ⟨⟨base, len, rfl⟩⟩ <;> rfl

/-- R381, R386, R387: a fault sets STICKY, and any but BUS_ERROR changes ERR and STICKY alone. -/
theorem Ends.eq_of_fault (h : Ends s (MayDo s) (MayDamage s) t) (hf : t.err ≠ .ok) :
    t = { s with mem := t.mem, freeCount := t.freeCount, err := t.err, sticky := true } ∧
      (t.err ≠ .busError → t = { s with err := t.err, sticky := true }) := by
  rcases h with _ | ⟨⟨⟨m, f, rfl⟩, -⟩⟩ | ⟨-⟩
  · exact ⟨rfl, fun _ => rfl⟩
  · exact ⟨rfl, fun hb => absurd rfl hb⟩
  · exact absurd rfl hf

variable {g : Sign} {o : Order}

theorem writeWindow_frame (h : exec (Instr.write w g o .window) s = .next t) :
    t = { s with mem := t.mem, freeCount := t.freeCount, err := t.err, sticky := t.sticky } ∧
      ∀ x, x ∉ fieldAddrs s (sint s.offset) → t.mem.read x = s.mem.read x :=
  ((ends_of_writeWindow h).mono (fun _ hu => hu.2) fun _ hu => hu.2).eq_of_memWritten

theorem writeBit_frame (h : exec (Instr.writeBit o) s = .next t) :
    t = { s with mem := t.mem, freeCount := t.freeCount, err := t.err, sticky := t.sticky } ∧
      ∀ x, x ≠ winAddr s (byteIndex (sint s.offset)) → t.mem.read x = s.mem.read x := by
  simpa using ((ends_of_writeBit h).mono (fun _ hu => hu.2) fun _ hu => hu.2).eq_of_memWritten

theorem cursorWrite_frame (h : exec (Instr.cursorWrite w g o) s = .next t) :
    t = { s with
        mem := t.mem, freeCount := t.freeCount, pos := t.pos, err := t.err, sticky := t.sticky } ∧
      ∀ x, x ∉ fieldAddrs s (sint s.pos) → t.mem.read x = s.mem.read x :=
  ((ends_of_cursorWrite h).mono (fun _ hu => hu.mono fun _ hv => hv.2) fun _ hu =>
    hu.2).eq_of_advanced_memWritten

theorem cursorWriteBit_frame (h : exec (Instr.cursorWriteBit o) s = .next t) :
    t = { s with
        mem := t.mem, freeCount := t.freeCount, pos := t.pos, err := t.err, sticky := t.sticky } ∧
      ∀ x, x ≠ winAddr s (byteIndex (sint s.pos)) → t.mem.read x = s.mem.read x := by
  simpa using ((ends_of_cursorWriteBit h).mono (fun _ hu => hu.mono fun _ hv => hv.2) fun _ hu =>
    hu.2).eq_of_advanced_memWritten

end

/-! ## Command words -/

theorem runWord_of_decode {c : Word32} {i : Instr} (h : decode c = .ok i) (s : State) :
    runWord c s = exec i s := by
  simp only [runWord, h]

theorem runWord_of_illegal {c : Word32} (h : ∀ i, encode i ≠ c) (s : State) :
    runWord c s = .next (raise s .illegalCommand) := by
  cases hd : decode c with
  | ok i => exact absurd (encode_of_decode hd) (h i)
  | error e => simp only [runWord, hd]

/-- R41, for every command word, legal or not. -/
theorem sticky_of_runWord {c : Word32} {s t : State} (h : runWord c s = .next t) :
    t.sticky = (s.sticky || decide (t.err ≠ .ok)) := by
  cases hd : decode c with
  | ok i =>
    rw [runWord_of_decode hd] at h
    exact (ends_of_exec h).sticky_eq fun _ hu => hu.1
  | error e =>
    simp only [runWord, hd] at h
    cases h
    simp [raise]

/-! ## Obligations O43, O45 and O41 -/

/-- Settles O43: each clause is the frame of one kind of command's end; an illegal word raises
ILLEGAL_COMMAND alone. -/
theorem commandsChangeOnlyTheirOwnState : Obligations.CommandsChangeOnlyTheirOwnState := by
  intro w g o k d s t
  refine ⟨?_, writeWindow_frame, fun h => (ends_of_writeScalar h).eq_of_scalarWritten,
    writeBit_frame, ?_, cursorWrite_frame, cursorWriteBit_frame, fun h => (ends_of_seek h).eq_of_seek,
    fun h => (ends_of_bind h).eq_of_bind, fun i h => ⟨fun hok => ?_, (ends_of_exec h).eq_of_fault⟩,
    fun c hc hb h => ?_⟩
  · rintro (h | h)
    · exact (ends_of_read h).eq_of_rdataSet
    · exact (ends_of_readBit h).eq_of_rdataSet
  · rintro (h | h)
    · exact ((ends_of_cursorRead h).mono (fun _ hu => hu.mono fun _ hv => hv.2) fun _ hu =>
        hu).eq_of_advanced_rdataSet
    · exact ((ends_of_cursorReadBit h).mono (fun _ hu => hu.mono fun _ hv => hv.2) fun _ hu =>
        hu).eq_of_advanced_rdataSet
  · obtain ⟨u, hu, rfl⟩ := (ends_of_exec h).done_of_ok hok
    exact hu.1
  · rw [issue_eq_runWord c hb, runWord_of_illegal hc] at h
    cases h
    rfl

/-- Settles O45: the frames of O43 for the spans, and what every command may do for the window. -/
theorem writesStayInTheirSpan : Obligations.WritesStayInTheirSpan := by
  refine ⟨fun w g o k d s t i hi h => ?_, fun i s t x h => ?_, fun w g o s t x hx => ?_⟩
  · obtain ⟨hread, -, hscalar, -, hcursor, -, -, hseek, hbind, -⟩ :=
      commandsChangeOnlyTheirOwnState w g o k d s t
    simp only [List.mem_cons, List.not_mem_nil, or_false] at hi
    rcases hi with rfl | rfl | rfl | rfl | rfl | rfl | rfl
    · rw [hread (.inl h)]
    · rw [(hscalar h).1]
    · rw [hread (.inr h)]
    · rw [hcursor (.inl h)]
    · rw [hcursor (.inr h)]
    · rw [hseek h]
    · rw [hbind h]
  · refine (ends_of_exec h).mem_induction (P := fun m => m.read x ≠ s.mem.read x →
      s.bound = true ∧ ∃ j < s.winLen.toNat, x = winAddr s j) (fun hx => absurd rfl hx)
      (fun _ hu => hu.2 x) fun _ hu => hu.2 x
  · refine ⟨fun h => ?_, fun h => ?_, fun h => ?_, fun h => ?_⟩
    · exact by_contra fun hn => hx ((writeWindow_frame h).2 x hn)
    · exact by_contra fun hn => hx ((cursorWrite_frame h).2 x hn)
    · exact by_contra fun hn => hx ((writeBit_frame h).2 x hn)
    · exact by_contra fun hn => hx ((cursorWriteBit_frame h).2 x hn)

/-- Settles O41: BUSY aside, a CMD write is the run of its word; a STATUS write has its own bit 8. -/
theorem stickyFollowsItsRule : Obligations.StickyFollowsItsRule := by
  refine ⟨fun c s t h => ?_, fun s v hb => ?_⟩
  · obtain ⟨u, hu, -⟩ := runWord_preserves c (s.setBusy true)
    rw [issue, hu] at h
    cases h
    have hs := sticky_of_runWord hu
    exact hs
  · rw [hostStep_regWrite_of_ne hb rfl (by decide)]
    simp only [writeRegister, writeStatus]
    cases v.getLsbD 8 <;> simp

/-! ## The advance of a cursor: O31 -/

/-- A sum of signed readings inside 32 bits does not wrap. -/
theorem sint_add {x y : Word32} (h0 : 0 ≤ sint x + sint y) (h1 : sint x + sint y < 2 ^ 31) :
    sint (x + y) = sint x + sint y := by
  unfold sint at *
  rw [BitVec.toInt_add]
  exact Int.bmod_eq_of_le (by omega) (by omega)

/-- A legal field ends inside the window, so its end is a POS (R50, R303). -/
theorem FieldLegal.sint_end {s : State} {w : WidthClass} (h : FieldLegal s w (sint s.pos))
    (hlen : s.winLen.toNat < Config.maxLen) :
    sint (s.pos + s.count) = sint s.pos + sint s.count ∧
      sint (s.pos + s.count) ≤ 8 * (s.winLen.toNat : Int) := by
  obtain ⟨-, hn, -, hB, hin⟩ := h
  unfold Config.maxLen at hlen
  have he := sint_add (x := s.pos) (y := s.count) (by omega) (by omega)
  exact ⟨he, he ▸ hin⟩

/-- So is the position after a legal bit. -/
theorem BitLegal.sint_end {s : State} (h : BitLegal s (sint s.pos))
    (hlen : s.winLen.toNat < Config.maxLen) :
    sint (s.pos + 1) = sint s.pos + 1 ∧ sint (s.pos + 1) ≤ 8 * (s.winLen.toNat : Int) := by
  obtain ⟨-, h0, hin⟩ := h
  unfold Config.maxLen at hlen
  have h1 : sint 1 = 1 := rfl
  have he := sint_add (x := s.pos) (y := 1) (by omega) (by omega)
  exact ⟨by rw [he, h1], by omega⟩

/-- Settles O31: a command that succeeded had a legal operand at POS, whose end is inside the window. -/
theorem cursorAdvanceNeverWraps : Obligations.CursorAdvanceNeverWraps := by
  intro w g o s t hlen hok
  refine ⟨?_, ?_⟩
  · rintro (h | h)
    · obtain ⟨_, ⟨_, ⟨hl, _, rfl⟩, rfl⟩, rfl⟩ := (ends_of_cursorRead h).done_of_ok hok
      exact hl.sint_end hlen
    · obtain ⟨_, ⟨_, ⟨hl, _, _, rfl, -⟩, rfl⟩, rfl⟩ := (ends_of_cursorWrite h).done_of_ok hok
      exact hl.sint_end hlen
  · rintro (h | h)
    · obtain ⟨_, ⟨_, ⟨hl, _, rfl⟩, rfl⟩, rfl⟩ := (ends_of_cursorReadBit h).done_of_ok hok
      exact hl.sint_end hlen
    · obtain ⟨_, ⟨_, ⟨hl, _, _, rfl, -⟩, rfl⟩, rfl⟩ := (ends_of_cursorWriteBit h).done_of_ok hok
      exact hl.sint_end hlen

/-! ## Scalar writes: O18 -/

/-- The stream bits of the scalar's byte image are its bits (R22, R82). -/
theorem streamBit_scalarBytes (x : Word64) (o : Order) (p : Nat) :
    streamBit (scalarBytes x) o p = x.getLsbD (streamPlace o p) := by
  have hp := streamPlace_div o p
  rw [streamBit_eq, scalarBytes, BitVec.getLsbD_setWidth, BitVec.getLsbD_ushiftRight,
    show 8 * (p / 8) + streamPlace o p % 8 = streamPlace o p by omega]
  simp [show streamPlace o p % 8 < 8 by omega]

/-- SCALAR after a legal scalar write (R233). -/
def mergedScalar (s : State) (w : WidthClass) (o : Order) : Word64 :=
  replaceScalar s.scalar (widthBits s.params w)
    (maskWrite o (scalarOperand s (widthBits s.params w)) (sint s.offset).toNat
      ((trunc s.wdata (sint s.count).toNat).setWidth (widthBits s.params w)) (sint s.count).toNat)

theorem ScalarLegal.writeScalar_eq {s : State} {w : WidthClass} (h : ScalarLegal s w) (o : Order) :
    writeScalar w o s = succeed (s.setScalar (mergedScalar s w o)) := by
  rcases writeScalar_cases w o s with ⟨hl, -⟩ | ⟨-, e⟩
  · exact absurd h hl
  · exact e

/-- R151, R154: the stream bits of the merged scalar below the width of the class. -/
theorem ScalarLegal.streamBit_mergedScalar {s : State} {w : WidthClass} (h : ScalarLegal s w)
    (o : Order) {p : Nat} (hp : p < widthBits s.params w) :
    streamBit (scalarBytes (mergedScalar s w o)) o p =
      refWriteBit (scalarBytes s.scalar) o (sint s.offset).toNat (sint s.count).toNat s.wdata p := by
  obtain ⟨hn, hnW, hB, hin⟩ := h
  have hW := isWidth_widthBits s.params w
  have hpl : streamPlace o p < widthBits s.params w := streamPlace_lt o hW.dvd hp
  have hend : (sint s.offset).toNat + (sint s.count).toNat ≤ widthBits s.params w := by omega
  rw [streamBit_scalarBytes, mergedScalar, getLsbD_replaceScalar _ hW.le, if_pos hpl,
    getLsbD_maskWrite o hW.dvd _ _ hend hp, refWriteBit, streamBit_scalarBytes]
  split
  · have hwt := fieldWeight_lt (ord := o) (n := (sint s.count).toNat)
      (i := p - (sint s.offset).toNat) (by omega)
    rw [BitVec.getLsbD_setWidth, getLsbD_trunc_of_lt hwt]
    simp only [Nat.lt_of_lt_of_le hwt (show _ ≤ widthBits s.params w by omega), decide_true,
      Bool.true_and]
  · simp only [scalarOperand, BitVec.getLsbD_setWidth, hpl, decide_true, Bool.true_and]

/-- Settles O18, by the bits of the merged scalar. -/
theorem scalarWriteSetsExactlyTheField : Obligations.ScalarWriteSetsExactlyTheField := by
  intro w g o s h
  refine ⟨mergedScalar s w o, ?_, fun p hp => h.streamBit_mergedScalar o hp, fun i hi => ?_⟩
  · rw [exec_writeScalar, h.writeScalar_eq]
    rfl
  · rw [mergedScalar, getLsbD_replaceScalar _ (isWidth_widthBits s.params w).le,
      if_neg (Nat.not_lt.mpr hi)]

end Sys2Proof.Machine
end

section
/-! Proofs. A CMD write as a step (O5) and reset (O58); then the registers as the host sees them: the
register map (O46, O60), the access rules (O47, O52), the words of STATUS, CAP and LENGTH (O48, O49, O50). -/

namespace Sys2Proof.Machine

/-! ## The step and reset: O5 and O58 -/

/-- Settles O5: the step takes the CMD write off the queue and runs its word. -/
theorem stepRunsTheDecodedCommand : Obligations.StepRunsTheDecodedCommand := by
  intro s rest c i hb hq hd
  rw [step_cons hq, ← runWord_of_decode hd]
  exact hostStep_regWrite_cmd (s := { s with hostQueue := rest }) (width := .bits32) hb (by decide) c

theorem resetWith_inv (p : Params) : (State.resetWith p).Inv where
  memCanonical := rfl
  memInSpace _ h := nomatch h
  winLenBound := Nat.two_pow_pos 28
  winBaseBound := Params.addrSpace_pos p
  unboundEmpty _ := ⟨rfl, rfl⟩
  notBusy := rfl
  noRace := rfl
  errProduced := ResultCode.noConfusion

/-- Settles O58; `State.reset` is the device of the default parameters. -/
theorem resetMeetsTheInvariant : Obligations.ResetMeetsTheInvariant :=
  fun p => ⟨resetWith_inv p, resetWith_inv Config.defaultParams⟩

/-! ## Halves of 64-bit registers -/

theorem loHalf_eq (x : Word64) : loHalf x = x.extractLsb' 0 32 := by
  ext i hi
  simp [loHalf]

theorem hiHalf_eq (x : Word64) : hiHalf x = x.extractLsb' 32 32 := by
  ext i hi
  simp [hiHalf]

/-- A low half replaced (R55). -/
theorem withLo_eq (x : Word64) (v : Word32) : withLo x v = x.extractLsb' 32 32 ++ v := by
  apply BitVec.eq_of_getLsbD_eq
  intro i hi
  simp only [withLo, BitVec.getLsbD_or, BitVec.getLsbD_shiftLeft, BitVec.getLsbD_ushiftRight,
    BitVec.getLsbD_setWidth, BitVec.getLsbD_append, BitVec.getLsbD_extractLsb']
  grind

/-- A high half replaced (R55). -/
theorem withHi_eq (x : Word64) (v : Word32) : withHi x v = v ++ x.extractLsb' 0 32 := by
  apply BitVec.eq_of_getLsbD_eq
  intro i hi
  simp only [withHi, loHalf, BitVec.getLsbD_or, BitVec.getLsbD_shiftLeft,
    BitVec.getLsbD_setWidth, BitVec.getLsbD_append, BitVec.getLsbD_extractLsb']
  grind

@[simp] theorem loHalf_withLo (x : Word64) (v : Word32) : loHalf (withLo x v) = v := by
  rw [loHalf_eq, withLo_eq]
  exact BitVec.extractLsb'_append_eq_right

@[simp] theorem hiHalf_withLo (x : Word64) (v : Word32) : hiHalf (withLo x v) = hiHalf x := by
  rw [hiHalf_eq, withLo_eq, hiHalf_eq]
  exact BitVec.extractLsb'_append_eq_left

@[simp] theorem loHalf_withHi (x : Word64) (v : Word32) : loHalf (withHi x v) = loHalf x := by
  rw [loHalf_eq, withHi_eq, loHalf_eq]
  exact BitVec.extractLsb'_append_eq_right

@[simp] theorem hiHalf_withHi (x : Word64) (v : Word32) : hiHalf (withHi x v) = v := by
  rw [hiHalf_eq, withHi_eq]
  exact BitVec.extractLsb'_append_eq_left

/-! ## The register map: O46 and O60 -/

/-- The offsets of the plain registers: those the host may write, but for CMD and STATUS (R33). -/
def plainRegisters : List Nat := [0x10, 0x14, 0x18, 0x1C, 0x28, 0x2C, 0x30, 0x38, 0x3C, 0x40]

/-- A write of a plain register is read back there (R33, R55). -/
theorem registerValue_writeRegister_self {a : Nat} (ha : a ∈ plainRegisters) (s : State)
    (v : Word32) : registerValue (writeRegister s a v) a = v := by
  simp only [plainRegisters, List.mem_cons, List.not_mem_nil, or_false] at ha
  rcases ha with rfl | rfl | rfl | rfl | rfl | rfl | rfl | rfl | rfl | rfl <;>
    simp [registerValue, writeRegister]

/-- The field, or half, that a plain register is shows at no other offset (R33, R55). -/
theorem registerValue_writeRegister_ne {a b : Nat} (ha : a ∈ plainRegisters) (hb : b ≠ a) (s : State)
    (v : Word32) : registerValue (writeRegister s a v) b = registerValue s b := by
  simp only [plainRegisters, List.mem_cons, List.not_mem_nil, or_false] at ha
  rcases ha with rfl | rfl | rfl | rfl | rfl | rfl | rfl | rfl | rfl | rfl <;> unfold registerValue
  · split -- OFFSET
    case h_5 => exact absurd rfl hb
    all_goals rfl
  · split -- COUNT
    case h_6 => exact absurd rfl hb
    all_goals rfl
  · split -- WDATA_LO
    case h_7 => exact absurd rfl hb
    case h_8 => exact hiHalf_withLo s.wdata v
    all_goals rfl
  · split -- WDATA_HI
    case h_8 => exact absurd rfl hb
    case h_7 => exact loHalf_withHi s.wdata v
    all_goals rfl
  · split -- SCALAR_LO
    case h_11 => exact absurd rfl hb
    case h_12 => exact hiHalf_withLo s.scalar v
    all_goals rfl
  · split -- SCALAR_HI
    case h_12 => exact absurd rfl hb
    case h_11 => exact loHalf_withHi s.scalar v
    all_goals rfl
  · split -- POS
    case h_13 => exact absurd rfl hb
    all_goals rfl
  · split -- WBASE_LO
    case h_15 => exact absurd rfl hb
    case h_16 => exact hiHalf_withLo s.wbase v
    all_goals rfl
  · split -- WBASE_HI
    case h_16 => exact absurd rfl hb
    case h_15 => exact loHalf_withHi s.wbase v
    all_goals rfl
  · split -- WLEN_REQ
    case h_17 => exact absurd rfl hb
    all_goals rfl

/-- An idle block takes an aligned 32-bit write of a plain register (R32). -/
theorem hostStep_writePlain {a : Nat} (ha : a ∈ plainRegisters) {s : State} (hb : s.busy = false)
    (v : Word32) : hostStep (.regWrite .bits32 a v) s = .next (writeRegister s a v) := by
  have hform : ∀ a ∈ plainRegisters, definedAccess .bits32 a = true ∧ a ≠ cmdOffset := by decide
  exact hostStep_regWrite_of_ne hb (hform a ha).1 (hform a ha).2 v

/-- A write of a plain register reaches neither memory nor STATUS. -/
theorem writeRegister_keeps {a : Nat} (ha : a ∈ plainRegisters) (s : State) (v : Word32) :
    (writeRegister s a v).mem = s.mem ∧ (writeRegister s a v).err = s.err ∧
      (writeRegister s a v).sticky = s.sticky := by
  have hst : a ≠ statusOffset := (by decide : ∀ a ∈ plainRegisters, a ≠ statusOffset) a ha
  unfold writeRegister
  split
  · exact absurd rfl hst
  all_goals exact ⟨rfl, rfl, rfl⟩

/-- Settles O46, by what the register map reads after a write of a plain register. -/
theorem writableRegistersReadBack : Obligations.WritableRegistersReadBack := by
  intro s v a ha hb
  have hbusy : (writeRegister s a v).busy = false := (preserves_writeRegister s a v).busy.trans hb
  have hform : definedAccess .bits32 a = true :=
    (by decide : ∀ a ∈ plainRegisters, definedAccess .bits32 a = true) a ha
  exact ⟨_, hostStep_writePlain ha hb v,
    ⟨_, hostStep_regRead hbusy hform, registerValue_writeRegister_self ha s v⟩,
    fun _ hne => registerValue_writeRegister_ne ha hne s v, writeRegister_keeps ha s v⟩

/-- Settles O60: each offset's own arm of the register map, with the halves as extracts. -/
theorem registerMapReachesTheState : Obligations.RegisterMapReachesTheState := by
  intro s v hb
  have hw {a : Nat} (ha : a ∈ plainRegisters) := hostStep_writePlain ha hb v
  have hr {a : Nat} (ha : definedAccess .bits32 a = true) := hostStep_regRead hb ha
  refine ⟨⟨hw (by decide), hw (by decide), ?_, ?_, ?_, ?_, hw (by decide), ?_, ?_, hw (by decide)⟩, ?_⟩
  · rw [← withLo_eq]; exact hw (by decide)
  · rw [← withHi_eq]; exact hw (by decide)
  · rw [← withLo_eq]; exact hw (by decide)
  · rw [← withHi_eq]; exact hw (by decide)
  · rw [← withLo_eq]; exact hw (by decide)
  · rw [← withHi_eq]; exact hw (by decide)
  · simp only [List.forall_mem_cons, ← loHalf_eq, ← hiHalf_eq]
    exact ⟨hr rfl, hr rfl, hr rfl, hr rfl, hr rfl, hr rfl, hr rfl, hr rfl, hr rfl, hr rfl, hr rfl,
      hr rfl, hr rfl, hr rfl, hr rfl, fun _ h => nomatch h⟩

/-! ## The access rules: O47 and O52 -/

theorem hostStep_regWrite_badForm {s : State} {width : AccessWidth} {a : Nat} (hb : s.busy = false)
    (hform : definedAccess width a = false) (v : Word32) :
    hostStep (.regWrite width a v) s = .refused .hostAccessForm := by
  simp [hostStep, hostWrite, hb, hform]

theorem hostStep_regRead_badForm {s : State} {width : AccessWidth} {a : Nat} (hb : s.busy = false)
    (hform : definedAccess width a = false) :
    hostStep (.regRead width a) s = .refused .hostAccessForm := by
  simp [hostStep, hostRead, hb, hform]

/-- An offset past the map reads 0 and ignores writes (R32, R33). -/
theorem registerValue_of_unlisted {a : Nat} (ha : 0x50 ≤ a) (s : State) : registerValue s a = 0 := by
  unfold registerValue
  split
  case h_21 => rfl
  all_goals omega

theorem writeRegister_of_unlisted {a : Nat} (ha : 0x50 ≤ a) (s : State) (v : Word32) :
    writeRegister s a v = s := by
  unfold writeRegister
  split
  case h_12 => rfl
  all_goals omega

/-- The offsets of the read-only registers (R33). -/
def readOnlyRegisters : List Nat := [0x00, 0x04, 0x20, 0x24, 0x34, 0x44, 0x48, 0x4C]

theorem writeRegister_of_readOnly {a : Nat} (ha : a ∈ readOnlyRegisters) (s : State) (v : Word32) :
    writeRegister s a v = s := by
  simp only [readOnlyRegisters, List.mem_cons, List.not_mem_nil, or_false] at ha
  rcases ha with rfl | rfl | rfl | rfl | rfl | rfl | rfl | rfl <;> rfl

/-- Settles O47, a rule at a time. -/
theorem hostAccessRules : Obligations.HostAccessRules := by
  intro s v hb
  refine ⟨fun width a hw => ?_, fun a h4 ha => ⟨?_, ?_⟩, fun a ha => ?_, ?_⟩
  · have hform : definedAccess width a = false := by
      rcases hw with hw | hw <;> simp [definedAccess, hw]
    exact ⟨hostStep_regWrite_badForm hb hform v, hostStep_regRead_badForm hb hform⟩
  · rw [hostStep_regRead hb (by simp [definedAccess, h4]), registerValue_of_unlisted ha]
    rfl
  · rw [hostStep_regWrite_of_ne hb (by simp [definedAccess, h4]) (by unfold cmdOffset; omega),
      writeRegister_of_unlisted ha]
  · have hform : ∀ a ∈ readOnlyRegisters, definedAccess .bits32 a = true ∧ a ≠ cmdOffset := by decide
    rw [hostStep_regWrite_of_ne hb (hform a ha).1 (hform a ha).2, writeRegister_of_readOnly ha]
  · exact hostStep_regRead hb rfl

/-- STATUS may be read while BUSY too (R37, R430). -/
theorem hostStep_readStatus (s : State) :
    hostStep (.regRead .bits32 statusOffset) s = .next (s.setHostData (statusWord s)) := by
  simp [hostStep, hostRead, definedAccess, statusOffset, registerValue]

/-- Settles O52: BUSY is the first check of every host access but a read of STATUS. -/
theorem hostAccessWhileBusyIsRefused : Obligations.HostAccessWhileBusyIsRefused := by
  intro s width a v b hb
  refine ⟨?_, fun ha => ?_, ?_, ?_, ⟨_, hostStep_readStatus s⟩⟩
  · simp [hostStep, hostWrite, hb]
  · simp [hostStep, hostRead, hb, statusOffset, ha]
  · simp [hostStep, hb]
  · simp [hostStep, hb]

/-! ## The words of STATUS, CAP and LENGTH: O48, O49 and O50 -/

theorem extractLsb'_eq_zero {w start len : Nat} {x : BitVec w}
    (h : ∀ i, start ≤ i → i < start + len → x.getLsbD i = false) : x.extractLsb' start len = 0 := by
  apply BitVec.eq_of_getLsbD_eq
  intro i hi
  simp [BitVec.getLsbD_extractLsb', h (start + i) (by omega) (by omega), -BitVec.getLsbD_eq_getElem]

/-- A flag shows in its own place only. -/
theorem getLsbD_flagAt (b : Bool) {i : Nat} (hi : i < 32) (j : Nat) :
    (flagAt b i).getLsbD j = (b && decide (j = i)) := by
  simp only [flagAt, BitVec.getLsbD_shiftLeft, BitVec.getLsbD_setWidth, BitVec.getLsbD_ofBool]
  grind

/-- Each bit of STATUS (R37). -/
theorem getLsbD_statusWord (s : State) (i : Nat) :
    (statusWord s).getLsbD i =
      if i < 4 then s.err.code.getLsbD i
      else if i = 4 then s.bound
      else if i = 5 then s.busy
      else if i = 8 then s.sticky
      else false := by
  simp only [statusWord, BitVec.getLsbD_or, BitVec.getLsbD_setWidth, getLsbD_flagAt, Nat.reduceLT]
  have hcode : 4 ≤ i → s.err.code.getLsbD i = false := BitVec.getLsbD_of_ge _ i
  grind

/-- Settles O48, bit by bit. -/
theorem statusWordHoldsItsFields : Obligations.StatusWordHoldsItsFields := by
  intro s
  refine ⟨statusWord s, hostStep_readStatus s, ?_, ?_, ?_, ?_, ?_, ?_⟩
  · apply BitVec.eq_of_getLsbD_eq
    intro i hi
    simp only [BitVec.getLsbD_extractLsb', getLsbD_statusWord, Nat.zero_add, hi, decide_true,
      Bool.true_and, if_true]
  · rw [getLsbD_statusWord]; rfl
  · rw [getLsbD_statusWord]; rfl
  · refine extractLsb'_eq_zero fun i h0 h1 => ?_
    rw [getLsbD_statusWord]
    grind
  · rw [getLsbD_statusWord]; rfl
  · refine extractLsb'_eq_zero fun i h0 h1 => ?_
    rw [getLsbD_statusWord]
    grind

/-- Each bit of CAP (R36). -/
theorem getLsbD_capWord (p : Params) (i : Nat) :
    (capWord p).getLsbD i =
      if i = 0 then p.ptr64
      else if 8 ≤ i ∧ i < 15 then (BitVec.ofNat 7 p.addrW).getLsbD (i - 8)
      else if 16 ≤ i ∧ i < 24 then (BitVec.ofNat 8 Config.lenLog2).getLsbD (i - 16)
      else false := by
  simp only [capWord, BitVec.getLsbD_or, BitVec.getLsbD_shiftLeft, BitVec.getLsbD_setWidth,
    getLsbD_flagAt, Nat.reduceLT]
  have haddr : 7 ≤ i - 8 → (BitVec.ofNat 7 p.addrW).getLsbD (i - 8) = false :=
    BitVec.getLsbD_of_ge _ _
  have hlen : 8 ≤ i - 16 → (BitVec.ofNat 8 Config.lenLog2).getLsbD (i - 16) = false :=
    BitVec.getLsbD_of_ge _ _
  grind

theorem addrW_le (p : Params) : p.addrW ≤ 64 := p.addrWMinus1.isLt

/-- The ADDR_W field of CAP: its 7 bits hold any width up to 64 (R10, R36). -/
theorem extractLsb'_capWord_addrW (p : Params) :
    (capWord p).extractLsb' 8 7 = BitVec.ofNat 7 p.addrW := by
  apply BitVec.eq_of_getLsbD_eq
  intro i hi
  rw [BitVec.getLsbD_extractLsb', getLsbD_capWord]
  grind

theorem extractLsb'_capWord_lenLog2 (p : Params) :
    (capWord p).extractLsb' 16 8 = BitVec.ofNat 8 Config.lenLog2 := by
  apply BitVec.eq_of_getLsbD_eq
  intro i hi
  rw [BitVec.getLsbD_extractLsb', getLsbD_capWord]
  grind

/-- Settles O49, bit by bit. -/
theorem idAndCapReportTheParameters : Obligations.IdAndCapReportTheParameters := by
  intro s
  have hcap : registerValue s 0x04 = capWord s.params := rfl
  rw [hcap]
  refine ⟨rfl, ?_, ?_, ?_, ?_, ?_, ?_⟩
  · rw [getLsbD_capWord]; rfl
  · refine extractLsb'_eq_zero fun i h0 h1 => ?_
    rw [getLsbD_capWord]
    grind
  · have hle := addrW_le s.params
    rw [extractLsb'_capWord_addrW, BitVec.toNat_ofNat]
    exact Nat.mod_eq_of_lt (by omega)
  · rw [getLsbD_capWord]; rfl
  · rw [extractLsb'_capWord_lenLog2]; rfl
  · refine extractLsb'_eq_zero fun i h0 h1 => ?_
    rw [getLsbD_capWord]
    grind

/-- LENGTH does not overflow: the window is shorter than 2^28 bytes (R48, R50). -/
theorem toNat_lengthWord {s : State} (hlen : s.winLen.toNat < Config.maxLen) :
    (lengthWord s).toNat = if s.bound then s.winLen.toNat * 8 else 0 := by
  unfold Config.maxLen at hlen
  unfold lengthWord
  split
  · rw [BitVec.toNat_mul]
    exact Nat.mod_eq_of_lt (by simp; omega)
  · rfl

/-- Settles O50: eight times a length below 2^28 has 31 bits. -/
theorem lengthReportsTheBoundBits : Obligations.LengthReportsTheBoundBits := by
  intro s hlen
  have h := toNat_lengthWord hlen
  unfold Config.maxLen at hlen
  refine ⟨h, ?_⟩
  have hread : registerValue s 0x34 = lengthWord s := rfl
  rw [hread, h]
  split <;> omega

end Sys2Proof.Machine
end

section
/-! Proofs. Window fields whatever their width class: reads and writes of legal operands (O26), the write
whose span wraps onto itself (O16); the scalar read (O10); commands raced on (O56). -/

namespace Sys2Proof

/-! ## A command's own word -/

/-- A word made of fields has those fields (R101). -/
theorem ofWord_toWord (f : Fields) : Fields.ofWord f.toWord = f := by
  obtain ⟨op, ord, wid, sgn, src, org, rsv⟩ := f
  simp only [Fields.ofWord, Fields.toWord, Fields.mk.injEq]
  refine ⟨?_, ?_, ?_, ?_, ?_, ?_, ?_⟩ <;>
  · apply BitVec.eq_of_getLsbD_eq
    intro i hi
    simp only [BitVec.getLsbD_extractLsb', BitVec.getLsbD_or, BitVec.getLsbD_shiftLeft,
      BitVec.getLsbD_setWidth]
    grind

/-- The fields of every command pass the checks of R110. -/
theorem check_fields (i : Instr) : i.fields.check = none := by
  cases i <;> rfl

/-- The fields of every command are dispatched to it (R102). -/
theorem dispatch_fields (i : Instr) : i.fields.dispatch = some i := by
  cases i <;> rfl

theorem decode_encode (i : Instr) : decode (encode i) = .ok i := by
  simp only [decode, encode, ofWord_toWord, check_fields, dispatch_fields]

@[simp] theorem WidthClass.ofBits_bits (w : WidthClass) : WidthClass.ofBits w.bits = w := by
  cases w <;> rfl

namespace Machine

/-! ## Window fields of legal operands -/

/-- A legal window read: BUS_ERROR when the port errs, and else the reference reading (R172, R386). -/
theorem FieldLegal.readField_eq {s : State} {w : WidthClass} {B : Int} (h : FieldLegal s w B)
    (g : Sign) (o : Order) :
    readField w g o B s =
      if readErrs s (fieldAddrs s B) then raise s .busError
      else succeed (s.setRdata (present g (widthBits s.params w) (sint s.count).toNat
        (BitVec.ofNat 64 (refRead (winRead s) o B.toNat (sint s.count).toNat)))) := by
  rcases readField_cases w g o B s with ⟨c, hc, -⟩ | ⟨-, herr, e⟩ | ⟨-, hp, e⟩
  · rw [checkWindow_eq_none.mpr h] at hc; cases hc
  · rw [e, if_pos herr]
  · rw [e, if_neg (by simp [readErrs_eq_false.mpr hp])]

/-- The bytes that a legal window write stores in its span (R147). -/
def mergedBytes (s : State) (w : WidthClass) (o : Order) (B : Int) : List Byte :=
  fieldWrite o (widthBits s.params w) (subOffset B) (trunc s.wdata (sint s.count).toNat)
    (sint s.count).toNat (stageBytes s (byteIndex B) (fieldBytes s B))

@[simp] theorem length_mergedBytes (s : State) (w : WidthClass) (o : Order) (B : Int) :
    (mergedBytes s w o B).length = fieldBytes s B :=
  length_merged s w B o _

/-- A legal window write: free bytes and BUS_ERROR when the port errs, and else the merged bytes stored
(R232, R386). -/
theorem FieldLegal.writeField_eq {s : State} {w : WidthClass} {B : Int} (h : FieldLegal s w B)
    (o : Order) :
    writeField w o B s =
      if writeErrs s (fieldAddrs s B) then raise (scramble s (fieldAddrs s B)) .busError
      else succeed (writeBack s (byteIndex B) (mergedBytes s w o B)) := by
  rcases writeField_cases w o B s with ⟨c, hc, -⟩ | ⟨-, herr, e⟩ | ⟨-, hp, e⟩
  · rw [checkWindow_eq_none.mpr h] at hc; cases hc
  · rw [e, if_pos herr]
  · rw [e, if_neg (by simp [writeErrs_eq_false.mpr hp])]; rfl

/-- A byte is known by its 8 stream bits, in either order (R22). -/
theorem byte_eq_of_streamBit {b b' : Byte} (o : Order) (a : Nat)
    (h : ∀ p, p / 8 = a → streamBit (fun _ => b) o p = streamBit (fun _ => b') o p) : b = b' := by
  apply BitVec.eq_of_getLsbD_eq
  intro i hi
  have hp := h (streamPlace o (8 * a + i)) (by rw [streamPlace_div]; omega)
  rw [streamBit_eq, streamBit_eq, streamPlace_streamPlace] at hp
  rwa [show (8 * a + i) % 8 = i by omega] at hp

/-- R83: the bytes merged for a field that is legal in both classes are the same in both. -/
theorem FieldLegal.mergedBytes_eq {s : State} {w₁ w₂ : WidthClass} {B : Int}
    (h₁ : FieldLegal s w₁ B) (h₂ : FieldLegal s w₂ B) (o : Order) :
    mergedBytes s w₁ o B = mergedBytes s w₂ o B := by
  refine List.ext_getElem (by simp) fun j hj₁ hj₂ => ?_
  have hk : j < fieldBytes s B := by simpa using hj₁
  have hbyte : (mergedBytes s w₁ o B).getD j 0 = (mergedBytes s w₂ o B).getD j 0 :=
    byte_eq_of_streamBit o (byteIndex B + j) fun p hp =>
      (h₁.streamBit_merged o hp hk).trans (h₂.streamBit_merged o hp hk).symm
  rwa [List.getD_eq_getElem _ _ hj₁, List.getD_eq_getElem _ _ hj₂] at hbyte

/-- Settles O26: an unsigned read presents the reference reading as it is, and the merged bytes are the
same in both classes. -/
theorem widthClassDoesNotChangeAField : Obligations.WidthClassDoesNotChangeAField := by
  intro w₁ w₂ g₁ g₂ o s h₁ h₂
  constructor
  · rw [exec_readWindow, exec_readWindow, h₁.readField_eq, h₂.readField_eq]
    rfl
  · rw [exec_writeWindow, exec_writeWindow, h₁.writeField_eq, h₂.writeField_eq, h₁.mergedBytes_eq h₂]

/-! ## A write whose span may wrap onto itself: O16 -/

/-- After a legal write with no port error, of a span of any length, each address of the span holds the
byte merged for an index with that address (R87, R147, R151); the rest of memory is kept. -/
theorem FieldLegal.writeField_bytes {s : State} {w : WidthClass} {B : Int} (h : FieldLegal s w B)
    (hm : s.mem.wf = true) (hp : PortWrites s (fieldAddrs s B)) (o : Order) :
    ∃ m f, writeField w o B s = succeed { s with mem := m, freeCount := f } ∧
      (∀ x ∈ fieldAddrs s B, ∃ j < fieldBytes s B, x = winAddr s (byteIndex B + j) ∧
        ∀ p, p / 8 = byteIndex B + j → streamBit (fun _ => m.read x) o p =
          refWriteBit (winRead s) o B.toNat (sint s.count).toNat s.wdata p) ∧
      ∀ x, x ∉ fieldAddrs s B → m.read x = s.mem.read x := by
  have hspan : spanAddrs s (byteIndex B) (mergedBytes s w o B).length = fieldAddrs s B := by
    rw [length_mergedBytes]; rfl
  obtain ⟨m, f, hw, hK, -⟩ := writeBack_eq s (byteIndex B) (mergedBytes s w o B)
  rw [hspan] at hK
  refine ⟨m, f, ?_, fun x hx => ?_, hK.outside⟩
  · rw [h.writeField_eq, if_neg (by simp [writeErrs_eq_false.mpr hp]), hw]
  · have hmem := read_writeBack_mem hm (hspan.symm ▸ hx)
    rw [hw] at hmem
    obtain ⟨j, hj, hxj, hread⟩ := mem_backCells_iff.mp hmem
    rw [length_mergedBytes] at hj
    refine ⟨j, hj, hxj, fun p hpj => ?_⟩
    rw [hread]
    exact h.streamBit_merged o hpj hj

/-- Settles O16: what a legal write does to its span does not need the span to be short. -/
theorem longSpanWriteKeepsItsFrame : Obligations.LongSpanWriteKeepsItsFrame := by
  intro w g o s hm
  refine ⟨fun hl hp _ => ?_, fun hl hp _ => ?_⟩
  · obtain ⟨m, f, e, hspan, hframe⟩ := hl.writeField_bytes hm hp o
    exact ⟨m, f, by rw [exec_writeWindow, e]; rfl, hspan, hframe⟩
  · obtain ⟨m, f, e, hspan, hframe⟩ := hl.writeField_bytes hm hp o
    exact ⟨m, f, by rw [exec_cursorWrite, cursorWriteField, e, advance_of_ok _ rfl]; rfl, hspan, hframe⟩

/-! ## Scalar reads: O10 -/

/-- R154: the masked read of the low `W` bits of a scalar is the reference reading of its byte image. -/
theorem maskRead_scalarBytes (o : Order) {W : Nat} (hW : IsWidth W) (x : Word64) {B n : Nat}
    (h : B + n ≤ W) :
    (maskRead o (x.setWidth W) B n).setWidth 64 =
      BitVec.ofNat 64 (refRead (scalarBytes x) o B n) := by
  have hn : n ≤ 64 := by have := hW.le; omega
  apply BitVec.eq_of_getLsbD_eq
  intro i hi
  rw [BitVec.getLsbD_setWidth, getLsbD_maskRead o hW.dvd _ h, getLsbD_refRead _ _ _ hn,
    streamBit_scalarBytes]
  by_cases hin : i < n
  · have hwt := fieldWeight_lt (ord := o) hin
    have hpl := streamPlace_lt o hW.dvd (show B + fieldWeight o n i < W by omega)
    simp [hin, hi, hpl]
  · simp [hin]

/-- Settles O10: a legal field lies in the low bits that the scalar read stages. -/
theorem scalarReadIsTheReferenceReading : Obligations.ScalarReadIsTheReferenceReading := by
  intro w g o s hl
  have hend : (sint s.offset).toNat + (sint s.count).toNat ≤ widthBits s.params w := by
    obtain ⟨hn, -, hB, hin⟩ := hl
    omega
  rcases readScalar_cases w g o s with ⟨hnl, -⟩ | ⟨-, e⟩
  · exact absurd hl hnl
  · rw [exec_readScalar, e, scalarOperand,
      maskRead_scalarBytes o (isWidth_widthBits s.params w) s.scalar hend]
    rfl

/-! ## The span of a command's own word -/

theorem commandSpan_encode (i : Instr) (s : State) :
    commandSpan (encode i) s = fieldsSpan i.fields s := by
  rw [commandSpan, encode, ofWord_toWord, if_pos (wf_of_check_eq_none (check_fields i))]

section

variable (w : WidthClass) (g : Sign) (o : Order) (s : State)

theorem commandSpan_write : commandSpan (encode (Instr.write w g o .window)) s =
    fieldSpan s w (sint s.offset) := by
  simp [commandSpan_encode, fieldsSpan, Source.bit]

theorem commandSpan_writeBit :
    commandSpan (encode (Instr.writeBit o)) s = bitSpan s (sint s.offset) := by
  simp [commandSpan_encode, fieldsSpan]

theorem commandSpan_cursorWrite : commandSpan (encode (Instr.cursorWrite w g o)) s =
    fieldSpan s w (sint s.pos) := by
  simp [commandSpan_encode, fieldsSpan]

theorem commandSpan_cursorWriteBit :
    commandSpan (encode (Instr.cursorWriteBit o)) s = bitSpan s (sint s.pos) := by
  simp [commandSpan_encode, fieldsSpan]

end

/-! ## What a command keeps: its request, and memory outside its span -/

/-- A command keeps the device's parameters and the registers that make its request (R42 to R44, R49). -/
structure RequestKept (s t : State) : Prop where
  params : t.params = s.params
  offset : t.offset = s.offset
  count : t.count = s.count
  wdata : t.wdata = s.wdata
  wbase : t.wbase = s.wbase
  wlenReq : t.wlenReq = s.wlenReq

section

variable {w : WidthClass} {g : Sign} {o : Order} {s t : State}

theorem cursorRead_frame (h : exec (Instr.cursorRead w g o) s = .next t) :
    t = { s with rdata := t.rdata, pos := t.pos, err := t.err, sticky := t.sticky } :=
  ((ends_of_cursorRead h).mono (fun _ hu => hu.mono fun _ hv => hv.2)
    fun _ hu => hu).eq_of_advanced_rdataSet

theorem cursorReadBit_frame (h : exec (Instr.cursorReadBit o) s = .next t) :
    t = { s with rdata := t.rdata, pos := t.pos, err := t.err, sticky := t.sticky } :=
  ((ends_of_cursorReadBit h).mono (fun _ hu => hu.mono fun _ hv => hv.2)
    fun _ hu => hu).eq_of_advanced_rdataSet

end

/-- No command writes its request (R54). -/
theorem requestKept_of_exec {i : Instr} {s t : State} (h : exec i s = .next t) : RequestKept s t := by
  rcases instr_kinds i with ⟨w, g, o, k, rfl⟩ | ⟨w, g, o, k, rfl⟩ | ⟨o, rfl⟩ | ⟨o, rfl⟩ |
    ⟨w, g, o, rfl⟩ | ⟨w, g, o, rfl⟩ | ⟨o, rfl⟩ | ⟨o, rfl⟩ | ⟨g, rfl⟩ | rfl
  · rw [(ends_of_read h).eq_of_rdataSet]; constructor <;> rfl
  · cases k with
    | window => rw [(writeWindow_frame h).1]; constructor <;> rfl
    | scalar => rw [(ends_of_writeScalar h).eq_of_scalarWritten.1]; constructor <;> rfl
  · rw [(ends_of_readBit h).eq_of_rdataSet]; constructor <;> rfl
  · rw [(writeBit_frame h).1]; constructor <;> rfl
  · rw [cursorRead_frame h]; constructor <;> rfl
  · rw [(cursorWrite_frame h).1]; constructor <;> rfl
  · rw [cursorReadBit_frame h]; constructor <;> rfl
  · rw [(cursorWriteBit_frame h).1]; constructor <;> rfl
  · rw [(ends_of_seek h).eq_of_seek]; constructor <;> rfl
  · rw [(ends_of_bind h).eq_of_bind]; constructor <;> rfl

/-- `u`'s memory is `s`'s outside the addresses. -/
def MemKept (s : State) (addrs : List Nat) (u : State) : Prop :=
  ∀ x, x ∉ addrs → u.mem.read x = s.mem.read x

theorem memKept_of_mem_eq {s u : State} (h : u.mem = s.mem) (addrs : List Nat) :
    MemKept s addrs u := fun x _ => by rw [h]

theorem MemWritten.memKept {s u : State} {addrs : List Nat} (h : MemWritten s addrs u) :
    MemKept s addrs u := by
  obtain ⟨m, f, rfl, hm⟩ := h
  exact hm

theorem FieldWritten.memKept {s u : State} {w : WidthClass} {B : Int} (h : FieldWritten s w B u) :
    MemKept s (fieldSpan s w B) u := by
  obtain ⟨hl, hw⟩ := h
  rw [hl.fieldSpan_eq]
  exact hw.memKept

theorem BitWritten.memKept {s u : State} {B : Int} (h : BitWritten s B u) :
    MemKept s (bitSpan s B) u := by
  obtain ⟨hl, hw⟩ := h
  rw [hl.bitSpan_eq]
  exact hw.memKept

/-- The advance of POS is no write of memory (R300). -/
theorem Advanced.memKept {s u : State} {n : Word32} {addrs : List Nat}
    (h : Advanced n (MemKept s addrs) u) : MemKept s addrs u := by
  obtain ⟨v, hv, rfl⟩ := h
  exact hv

/-- A command keeps the memory that its work keeps, its fault as well. -/
theorem Ends.memKept {s t : State} {done damaged : State → Prop} {addrs : List Nat}
    (h : Ends s done damaged t) (hdone : ∀ u, done u → MemKept s addrs u)
    (hdamaged : ∀ u, damaged u → MemKept s addrs u) : MemKept s addrs t := fun x hx =>
  h.mem_induction (P := fun m => m.read x = s.mem.read x) rfl (fun u hu => hdone u hu x hx)
    fun u hu => hdamaged u hu x hx

/-- No command writes memory outside its span, which is empty when it faults before its accesses
(R84, R88). -/
theorem memKept_of_exec {i : Instr} {s t : State} (h : exec i s = .next t) :
    MemKept s (commandSpan (encode i) s) t := by
  rcases instr_kinds i with ⟨w, g, o, k, rfl⟩ | ⟨w, g, o, k, rfl⟩ | ⟨o, rfl⟩ | ⟨o, rfl⟩ |
    ⟨w, g, o, rfl⟩ | ⟨w, g, o, rfl⟩ | ⟨o, rfl⟩ | ⟨o, rfl⟩ | ⟨g, rfl⟩ | rfl
  · exact memKept_of_mem_eq (by rw [(ends_of_read h).eq_of_rdataSet]) _
  · cases k with
    | window =>
      rw [commandSpan_write]
      exact (ends_of_writeWindow h).memKept (fun _ => FieldWritten.memKept)
        fun _ => FieldWritten.memKept
    | scalar => exact memKept_of_mem_eq (by rw [(ends_of_writeScalar h).eq_of_scalarWritten.1]) _
  · exact memKept_of_mem_eq (by rw [(ends_of_readBit h).eq_of_rdataSet]) _
  · rw [commandSpan_writeBit]
    exact (ends_of_writeBit h).memKept (fun _ => BitWritten.memKept) fun _ => BitWritten.memKept
  · exact memKept_of_mem_eq (by rw [cursorRead_frame h]) _
  · rw [commandSpan_cursorWrite]
    exact (ends_of_cursorWrite h).memKept
      (fun _ hu => (hu.mono fun _ => FieldWritten.memKept).memKept) fun _ => FieldWritten.memKept
  · exact memKept_of_mem_eq (by rw [cursorReadBit_frame h]) _
  · rw [commandSpan_cursorWriteBit]
    exact (ends_of_cursorWriteBit h).memKept
      (fun _ hu => (hu.mono fun _ => BitWritten.memKept).memKept) fun _ => BitWritten.memKept
  · exact memKept_of_mem_eq (by rw [(ends_of_seek h).eq_of_seek]) _
  · exact memKept_of_mem_eq (by rw [(ends_of_bind h).eq_of_bind]) _

/-- What every command word keeps, legal or not (R84, R113). -/
theorem kept_of_runWord {c : Word32} {s t : State} (h : runWord c s = .next t) :
    RequestKept s t ∧ MemKept s (commandSpan c s) t := by
  cases hd : decode c with
  | ok i =>
    rw [runWord_of_decode hd] at h
    rw [← encode_of_decode hd]
    exact ⟨requestKept_of_exec h, memKept_of_exec h⟩
  | error e =>
    simp only [runWord, hd] at h
    cases h
    exact ⟨by constructor <;> rfl, memKept_of_mem_eq rfl _⟩

/-! ## Commands raced on: O56 -/

/-- A raced command is the run of its word while the race is on, and then the end of the race. -/
theorem issueRaced_eq {c : Word32} {addrs : List Nat} {s u : State} (hb : s.busy = false)
    (h : runWord c (s.setRaced addrs) = .next u) :
    issueRaced c addrs s = .next (settleRace s.winLen.toNat addrs u) := by
  rw [issueRaced, issue_eq_runWord c (s := s.setRaced addrs) hb, h]
  rfl

/-- A race changes no command's span. -/
theorem commandSpan_setRaced (c : Word32) (s : State) (addrs : List Nat) :
    commandSpan c (s.setRaced addrs) = commandSpan c s := rfl

/-- R92(d): while raced on, an index with a raced address reads a free value of its own (log 9). -/
theorem winRead_setRaced (s : State) (addrs : List Nat) :
    winRead (s.setRaced addrs) = fun i =>
      if winAddr s i ∈ addrs then Config.freeByte (s.freeCount + i) else s.mem.read (winAddr s i) :=
  rfl

theorem FieldLegal.setRaced {s : State} {w : WidthClass} {B : Int} (h : FieldLegal s w B)
    (addrs : List Nat) : FieldLegal (s.setRaced addrs) w B := { h with }

/-- What RD leaves in ERR and RDATA when legal and not failed by the port (R172, R174). -/
theorem FieldLegal.of_runWord_read {s t : State} {w : WidthClass} {g : Sign} {o : Order}
    (hl : FieldLegal s w (sint s.offset)) (hp : PortReads s (fieldAddrs s (sint s.offset)))
    (h : runWord (encode (Instr.read w g o .window)) s = .next t) :
    t.err = .ok ∧ t.rdata = present g (widthBits s.params w) (sint s.count).toNat
      (BitVec.ofNat 64 (refRead (winRead s) o (sint s.offset).toNat (sint s.count).toNat)) := by
  rw [runWord_of_decode (decode_encode _), exec_readWindow, hl.readField_eq,
    if_neg (by simp [readErrs_eq_false.mpr hp])] at h
  cases h
  exact ⟨rfl, rfl⟩

/-- Settles O56: the word's run keeps what every word keeps, and the end of the race frees the raced
bytes only. -/
theorem racedCommandKeepsOtherBytes : Obligations.RacedCommandKeepsOtherBytes := by
  intro s c addrs hb ha
  obtain ⟨u, hu, -⟩ := runWord_preserves c (s.setRaced addrs)
  obtain ⟨hreq, hmem⟩ := kept_of_runWord hu
  obtain ⟨m, f, hsettle, hK⟩ := settleRace_eq s.winLen.toNat addrs u
  refine ⟨{ u with mem := m, raced := [], freeCount := f }, ?_, rfl, fun x hx hspan => ?_,
    hreq.params, hreq.offset, hreq.count, hreq.wdata, hreq.wbase, hreq.wlenReq, ?_⟩
  · rw [hostStep_racedCommand hb ha, issueRaced_eq hb hu, hsettle]
  · exact (hK.outside x hx).trans (hmem x (by rwa [commandSpan_setRaced]))
  · rintro w g o rfl hl hp
    have hread := (hl.setRaced addrs).of_runWord_read hp hu
    rwa [winRead_setRaced] at hread

end Machine

end Sys2Proof
end

section
/-! Proofs. The encoding (30_encoding.md): a word decodes to a command exactly when it is that command's
word (O1), the words the decoder rejects (O2), the count of the legal ones (O3), the sample words (O4),
and signedness in a write (O21). -/

namespace Sys2Proof

/-! ## Decoding undoes encoding: O1 and O4 -/

/-- Settles O1: a legal word is the word of the command it decodes to, and a command's word decodes to
the command. -/
theorem decodeAgreesWithEncode : Obligations.DecodeAgreesWithEncode :=
  fun _ i => ⟨fun h => (encode_of_decode h).symm, fun h => h ▸ decode_encode i⟩

/-- Settles O4: each sample word is its command's word, and OP = 0 is reserved. -/
theorem sampleWordsDecode : Obligations.SampleWordsDecode :=
  ⟨decode_encode .rdU8Lsb, decode_encode .rdU8Msb, decode_encode .rdI32MsbS, decode_encode .wrU64Lsb,
    decode_encode .rdbitMsb, decode_encode .crdUPLsb, decode_encode .seekEnd, decode_encode .bind,
    .reservedOp, rfl⟩

/-! ## The illegal words: O2 -/

/-- The checks of R110 pass exactly on the legal combinations of R109. -/
theorem check_eq_none_iff {f : Fields} : f.check = none ↔ f.wf = true := by
  refine ⟨wf_of_check_eq_none, fun h => ?_⟩
  simp only [Fields.wf, Bool.and_eq_true] at h
  simp [Fields.check, h]

/-- Every defined operation has its command (R102). -/
theorem exists_dispatch {f : Fields} (h : f.opDefined = true) : ∃ i, f.dispatch = some i := by
  simp only [Fields.opDefined, Bool.and_eq_true, decide_eq_true_eq] at h
  unfold Fields.dispatch
  split
  case h_11 => grind
  all_goals exact ⟨_, rfl⟩

/-- The words that decode are those with legal fields (R109, R110). -/
theorem exists_decode_iff {c : Word32} :
    (∃ i, decode c = .ok i) ↔ (Fields.ofWord c).wf = true := by
  constructor
  · rintro ⟨i, h⟩
    rw [← encode_of_decode h, encode, ofWord_toWord]
    exact check_eq_none_iff.mp (check_fields i)
  · intro h
    have hop : (Fields.ofWord c).opDefined = true := by
      simp only [Fields.wf, Bool.and_eq_true] at h
      simp only [h]
    obtain ⟨i, hi⟩ := exists_dispatch hop
    exact ⟨i, by simp only [decode, check_eq_none_iff.mpr h, hi]⟩

/-- The words that the decoder rejects are those with illegal fields (R113). -/
theorem exists_error_iff {c : Word32} :
    (∃ e, decode c = .error e) ↔ (Fields.ofWord c).wf = false := by
  rw [← Bool.not_eq_true, ← exists_decode_iff]
  cases decode c <;> simp

namespace Fields

variable {f : Fields}

/-! ### The lines of R110, failed -/

theorem reservedClear_eq_false : f.reservedClear = false ↔ f.rsv ≠ 0 := by
  simp [reservedClear]

theorem opDefined_eq_false : f.opDefined = false ↔ f.op = 0 ∨ 11 ≤ f.op.toNat := by
  have h0 : f.op = 0 ↔ f.op.toNat = 0 := by simp [BitVec.toNat_eq]
  simp only [opDefined, Bool.and_eq_false_iff, decide_eq_false_iff_not, h0]
  omega

theorem multiBit_iff : f.multiBit = true ↔ f.op ∈ ([1, 2, 5, 6] : List (BitVec 4)) := by
  simp [multiBit, or_assoc]

theorem widDefined_eq_false :
    f.widDefined = false ↔ f.op ∈ ([1, 2, 5, 6] : List (BitVec 4)) ∧ 4 < f.wid.toNat := by
  rw [← multiBit_iff]
  simp [widDefined]

/-- A defined operation that is not one of the multi-bit ones is one of the six others (R102). -/
theorem multiBit_eq_false (h : f.opDefined = true) :
    f.multiBit = false ↔ f.op ∈ ([3, 4, 7, 8, 9, 10] : List (BitVec 4)) := by
  have key : ∀ op : BitVec 4, 1 ≤ op.toNat ∧ op.toNat ≤ 10 →
      (op ∉ ([1, 2, 5, 6] : List (BitVec 4)) ↔ op ∈ ([3, 4, 7, 8, 9, 10] : List (BitVec 4))) := by
    decide
  rw [← Bool.not_eq_true, multiBit_iff]
  exact key f.op (by simpa [opDefined] using h)

theorem widSgnClear_eq_false (h : f.opDefined = true) :
    f.widSgnClear = false ↔
      f.op ∈ ([3, 4, 7, 8, 9, 10] : List (BitVec 4)) ∧ (f.wid ≠ 0 ∨ f.sgn ≠ 0) := by
  rw [← multiBit_eq_false h]
  simp [widSgnClear, ← not_and_or]

theorem srcAllowed_eq_false :
    f.srcAllowed = false ↔ f.op ∉ ([1, 2] : List (BitVec 4)) ∧ f.src ≠ 0 := by
  simp [srcAllowed]

theorem orgClear_eq_false : f.orgClear = false ↔ f.op ≠ 9 ∧ f.org ≠ 0 := by
  simp [orgClear]

theorem seekOrgDefined_eq_false : f.seekOrgDefined = false ↔ f.op = 9 ∧ f.org = 3 := by
  simp [seekOrgDefined]

theorem ordAllowed_eq_false :
    f.ordAllowed = false ↔ f.op ∈ ([9, 10] : List (BitVec 4)) ∧ f.ord ≠ 0 := by
  simp [ordAllowed, ← or_iff_not_imp_left]

/-- Fields are illegal when they fail a line of R110. -/
theorem wf_eq_false_iff : f.wf = false ↔
    f.reservedClear = false ∨ f.opDefined = false ∨ f.widDefined = false ∨ f.widSgnClear = false ∨
      f.srcAllowed = false ∨ f.orgClear = false ∨ f.seekOrgDefined = false ∨
      f.ordAllowed = false := by
  simp only [wf, Bool.and_eq_false_iff, or_assoc]

end Fields

/-- Settles O2: the rejected words have illegal fields, and the lines of R110 are read off one by one.
The line on WID and SGN names the six operations that are not multi-bit, which matters only when the
operation is defined. -/
theorem illegalWordsAreTheListedOnes : Obligations.IllegalWordsAreTheListedOnes := by
  intro c
  rw [exists_error_iff, Fields.wf_eq_false_iff, Fields.reservedClear_eq_false,
    Fields.widDefined_eq_false, Fields.srcAllowed_eq_false, Fields.orgClear_eq_false,
    Fields.seekOrgDefined_eq_false, Fields.ordAllowed_eq_false]
  cases hop : (Fields.ofWord c).opDefined with
  | false =>
    have hline := Fields.opDefined_eq_false.mp hop
    exact iff_of_true (.inr (.inl rfl)) (.inr (.inl hline))
  | true =>
    rw [Fields.widSgnClear_eq_false hop, ← hop, Fields.opDefined_eq_false]
    rfl

/-! ## The legal words: O3 -/

def WidthClass.all : List WidthClass := [.w8, .w16, .w32, .w64, .ptr]

def Sign.all : List Sign := [.unsigned, .signed]

def Order.all : List Order := [.lsb, .msb]

def Source.all : List Source := [.window, .scalar]

def Origin.all : List Origin := [.begin, .current, .fromEnd]

@[simp] theorem WidthClass.mem_all (w : WidthClass) : w ∈ WidthClass.all := by cases w <;> decide

@[simp] theorem Sign.mem_all (g : Sign) : g ∈ Sign.all := by cases g <;> decide

@[simp] theorem Order.mem_all (o : Order) : o ∈ Order.all := by cases o <;> decide

@[simp] theorem Source.mem_all (k : Source) : k ∈ Source.all := by cases k <;> decide

@[simp] theorem Origin.mem_all (d : Origin) : d ∈ Origin.all := by cases d <;> decide

/-- The commands of a multi-bit operation, one for each type and order (R101, R104, R105). -/
def Instr.typed (make : WidthClass → Sign → Order → List Instr) : List Instr :=
  WidthClass.all.flatMap fun w => Sign.all.flatMap fun g => Order.all.flatMap (make w g)

theorem Instr.mem_typed {make : WidthClass → Sign → Order → List Instr} {i : Instr} :
    i ∈ Instr.typed make ↔ ∃ w g o, i ∈ make w g o := by
  simp [Instr.typed]

/-- Every command, by the parameters that its name is made of, in the order of `Instr`. -/
def Instr.all : List Instr :=
  Instr.typed (fun w g o => Source.all.map (Instr.read w g o)) ++
    Instr.typed (fun w g o => Source.all.map (Instr.write w g o)) ++
    Order.all.map Instr.readBit ++ Order.all.map Instr.writeBit ++
    Instr.typed (fun w g o => [Instr.cursorRead w g o]) ++
    Instr.typed (fun w g o => [Instr.cursorWrite w g o]) ++
    Order.all.map Instr.cursorReadBit ++ Order.all.map Instr.cursorWriteBit ++
    Origin.all.map Instr.seek ++ [.bind]

theorem Instr.mem_all (i : Instr) : i ∈ Instr.all := by
  simpa [Instr.all, Instr.mem_typed, or_assoc, eq_comm] using Machine.instr_kinds i

/-- The listed commands are numbered as the constructors of `Instr` are. -/
theorem Instr.map_ctorIdx_all : Instr.all.map Instr.ctorIdx = List.range 132 := by
  decide

theorem Instr.length_all : Instr.all.length = 132 := by
  rw [← List.length_map Instr.ctorIdx, Instr.map_ctorIdx_all, List.length_range]

theorem Instr.nodup_all : Instr.all.Nodup :=
  List.Nodup.of_map Instr.ctorIdx (Instr.map_ctorIdx_all ▸ List.nodup_range)

theorem encode_injective : Function.Injective encode := fun i j h => by
  have hd : decode (encode i) = .ok j := h ▸ decode_encode j
  rw [decode_encode] at hd
  exact Except.ok.inj hd

/-- Settles O3: the legal words are the words of the 132 commands, each command with a word of its own. -/
theorem legalWordsNumber132 : Obligations.LegalWordsNumber132 := by
  refine ⟨Instr.all.map encode, ?_, Instr.nodup_all.map encode_injective, fun c => ?_⟩
  · rw [List.length_map, Instr.length_all]
  · simp only [List.mem_map, Instr.mem_all, true_and, decodeAgreesWithEncode c, eq_comm]

namespace Machine

/-! ## Signedness in a write: O21 -/

/-- Settles O21: no operation that writes is given the sign. -/
theorem signednessDoesNotChangeAWrite : Obligations.SignednessDoesNotChangeAWrite := by
  intro w o k s
  constructor
  · cases k with
    | window => rw [exec_writeWindow, exec_writeWindow]
    | scalar => rw [exec_writeScalar, exec_writeScalar]
  · rw [exec_cursorWrite, exec_cursorWrite]

end Machine

end Sys2Proof
end

section
/-! Proofs. Commands abandoned by reset (O55), and the operands that each command reads (O44). -/

namespace Sys2Proof.Machine

/-! ## Commands abandoned by reset: O55 -/

/-- An illegal word has no span (R113). -/
theorem commandSpan_of_illegal {c : Word32} (h : ∀ i, encode i ≠ c) (s : State) :
    commandSpan c s = [] :=
  if_neg fun hwf =>
    have ⟨i, hi⟩ := exists_decode_iff.mpr hwf
    h i (encode_of_decode hi)

/-- A command with no span, abandoned, is a reset (R420, R421). -/
theorem abandon_of_commandSpan_nil {c : Word32} {s : State} (h : commandSpan c s = []) :
    abandon c s = blockReset s := by
  rw [abandon, h]
  rfl

/-- A multi-bit command reaches its field's addresses at most (R84, R88). -/
theorem fieldSpan_subset (s : State) (w : WidthClass) (B : Int) :
    fieldSpan s w B ⊆ fieldAddrs s B := by
  unfold fieldSpan
  split
  · exact List.nil_subset _
  · exact fun _ hx => hx

/-- A single-bit command reaches its one address at most (R84, R290). -/
theorem bitSpan_subset (s : State) (B : Int) : bitSpan s B ⊆ [winAddr s (byteIndex B)] := by
  unfold bitSpan
  split
  · exact List.nil_subset _
  · exact fun _ hx => hx

section

variable (w : WidthClass) (g : Sign) (o : Order) (s : State)

theorem commandSpan_read : commandSpan (encode (Instr.read w g o .window)) s =
    fieldSpan s w (sint s.offset) := by
  simp [commandSpan_encode, fieldsSpan, Source.bit]

theorem commandSpan_readBit :
    commandSpan (encode (Instr.readBit o)) s = bitSpan s (sint s.offset) := by
  simp [commandSpan_encode, fieldsSpan]

theorem commandSpan_cursorRead : commandSpan (encode (Instr.cursorRead w g o)) s =
    fieldSpan s w (sint s.pos) := by
  simp [commandSpan_encode, fieldsSpan]

theorem commandSpan_cursorReadBit :
    commandSpan (encode (Instr.cursorReadBit o)) s = bitSpan s (sint s.pos) := by
  simp [commandSpan_encode, fieldsSpan]

/-- The commands that reach no window memory (R54). -/
theorem commandSpan_of_noAccess {i : Instr}
    (hi : i ∈ [Instr.read w g o .scalar, Instr.write w g o .scalar, .seekBegin, .seekCur, .seekEnd,
      .bind]) : commandSpan (encode i) s = [] := by
  simp only [List.mem_cons, List.not_mem_nil, or_false] at hi
  rw [commandSpan_encode]
  rcases hi with rfl | rfl | rfl | rfl | rfl | rfl
  · simp [fieldsSpan, Source.bit]
  · simp [fieldsSpan, Source.bit]
  all_goals rfl

end

/-- Settles O55: an abandoned command changes bytes of its span only, and the span lies in the addresses
that the command names. -/
theorem abandonedCommandKeepsOtherBytes : Obligations.AbandonedCommandKeepsOtherBytes := by
  intro w g o s i hb
  refine ⟨fun c hc => ?_, ?_⟩
  · rw [hostStep_abandonedCommand hb, abandon_of_commandSpan_nil (commandSpan_of_illegal hc s)]
    rfl
  obtain ⟨m, f, habandon, hK, hnil⟩ := abandon_eq (encode i) s
  have outside {addrs : List Nat} (hsub : commandSpan (encode i) s ⊆ addrs) {x : Nat}
      (hx : x ∉ addrs) : m.read x = s.mem.read x := hK.outside x fun h => hx (hsub h)
  refine ⟨_, (hostStep_abandonedCommand hb _).trans (congrArg _ habandon), rfl, fun hi x hx => ?_,
    fun hi x hx => ?_, fun hi x hx => ?_, fun hi x hx => ?_, fun hi =>
    hnil (commandSpan_of_noAccess w g o s hi)⟩
  all_goals simp only [List.mem_cons, List.not_mem_nil, or_false] at hi
  · exact outside (by
      rcases hi with rfl | rfl <;> simp only [commandSpan_read, commandSpan_write, fieldSpan_subset]) hx
  · exact outside (by
      rcases hi with rfl | rfl <;>
        simp only [commandSpan_cursorRead, commandSpan_cursorWrite, fieldSpan_subset]) hx
  · exact outside (by
      rcases hi with rfl | rfl <;> simp only [commandSpan_readBit, commandSpan_writeBit, bitSpan_subset])
      (List.mem_singleton.not.mpr hx)
  · exact outside (by
      rcases hi with rfl | rfl <;>
        simp only [commandSpan_cursorReadBit, commandSpan_cursorWriteBit, bitSpan_subset])
      (List.mem_singleton.not.mpr hx)

/-! ## The operands a command reads: O44 -/

/-- Registers, window and memory overwritten: each field holds the new value, or none to keep the old. -/
structure Overwrite where
  offset : Option Word32 := none
  count : Option Word32 := none
  wdata : Option Word64 := none
  rdata : Option Word64 := none
  scalar : Option Word64 := none
  pos : Option Word32 := none
  wbase : Option Word64 := none
  wlenReq : Option Word32 := none
  winBase : Option Word64 := none
  winLen : Option Word32 := none
  mem : Option Memory := none
  port : Option Port := none

namespace Overwrite

/-- The state overwritten. -/
def apply (f : Overwrite) (s : State) : State :=
  { s with
    offset := f.offset.getD s.offset, count := f.count.getD s.count, wdata := f.wdata.getD s.wdata
    rdata := f.rdata.getD s.rdata, scalar := f.scalar.getD s.scalar, pos := f.pos.getD s.pos
    wbase := f.wbase.getD s.wbase, wlenReq := f.wlenReq.getD s.wlenReq
    winBase := f.winBase.getD s.winBase, winLen := f.winLen.getD s.winLen
    mem := f.mem.getD s.mem, port := f.port.getD s.port }

/-- The window, its memory and its port are kept. -/
structure KeepsWindow (f : Overwrite) : Prop where
  winBase : f.winBase = none := by rfl
  winLen : f.winLen = none := by rfl
  mem : f.mem = none := by rfl
  port : f.port = none := by rfl

variable {f : Overwrite} {s : State}

/-! ### Overwriting and the updates of the state -/

theorem params_apply : (f.apply s).params = s.params := rfl

theorem offset_apply (h : f.offset = none) : (f.apply s).offset = s.offset := by simp [apply, h]

theorem count_apply (h : f.count = none) : (f.apply s).count = s.count := by simp [apply, h]

theorem wdata_apply (h : f.wdata = none) : (f.apply s).wdata = s.wdata := by simp [apply, h]

theorem scalar_apply (h : f.scalar = none) : (f.apply s).scalar = s.scalar := by simp [apply, h]

theorem pos_apply (h : f.pos = none) : (f.apply s).pos = s.pos := by simp [apply, h]

theorem wbase_apply (h : f.wbase = none) : (f.apply s).wbase = s.wbase := by simp [apply, h]

theorem wlenReq_apply (h : f.wlenReq = none) : (f.apply s).wlenReq = s.wlenReq := by simp [apply, h]

theorem winLen_apply (h : f.winLen = none) : (f.apply s).winLen = s.winLen := by simp [apply, h]

theorem raise_apply (c : ResultCode) : raise (f.apply s) c = f.apply (raise s c) := rfl

theorem succeed_apply : succeed (f.apply s) = f.apply (succeed s) := rfl

theorem setRdata_apply (h : f.rdata = none) (v : Word64) :
    (f.apply s).setRdata v = f.apply (s.setRdata v) := by simp [apply, State.setRdata, h]

theorem setScalar_apply (h : f.scalar = none) (v : Word64) :
    (f.apply s).setScalar v = f.apply (s.setScalar v) := by simp [apply, State.setScalar, h]

theorem setPos_apply (h : f.pos = none) (v : Word32) :
    (f.apply s).setPos v = f.apply (s.setPos v) := by simp [apply, State.setPos, h]

theorem setWindow_apply (hb : f.winBase = none) (hl : f.winLen = none) (base : Word64)
    (len : Word32) : (f.apply s).setWindow base len = f.apply (s.setWindow base len) := by
  simp [apply, State.setWindow, hb, hl]

theorem KeepsWindow.setMem_apply (h : f.KeepsWindow) (m : Memory) (n : Nat) :
    ({ f.apply s with mem := m, freeCount := n } : State) =
      f.apply { s with mem := m, freeCount := n } := by
  simp [apply, h.mem]

theorem KeepsWindow.sameWindow (h : f.KeepsWindow) (s : State) : SameWindow s (f.apply s) where
  params := rfl
  bound := rfl
  winBase := by simp [apply, h.winBase]
  winLen := winLen_apply h.winLen
  mem := by simp [apply, h.mem]
  port := by simp [apply, h.port]
  raced := rfl
  freeCount := rfl

/-! ### Overwriting and the operations -/

theorem KeepsWindow.raise_scramble_apply (h : f.KeepsWindow) (addrs : List Nat) :
    raise (scramble (f.apply s) addrs) .busError = f.apply (raise (scramble s addrs) .busError) := by
  rw [scramble_map (h.sameWindow s) rfl (fun _ _ => h.setMem_apply _ _), raise_apply]

theorem KeepsWindow.succeed_writeBack_apply (h : f.KeepsWindow) (a : Nat) (bytes : List Byte) :
    succeed (writeBack (f.apply s) a bytes) = f.apply (succeed (writeBack s a bytes)) := by
  rw [writeBack_map (h.sameWindow s) rfl (fun _ _ => h.setMem_apply _ _), succeed_apply]

theorem KeepsWindow.readField_apply (h : f.KeepsWindow) (hcount : f.count = none)
    (hrdata : f.rdata = none) (w : WidthClass) (g : Sign) (o : Order) (B : Int) :
    readField w g o B (f.apply s) = f.apply (readField w g o B s) :=
  readField_map (h.sameWindow s) (count_apply hcount) raise_apply
    (fun v => by rw [setRdata_apply hrdata, succeed_apply]) w g o B

theorem KeepsWindow.writeField_apply (h : f.KeepsWindow) (hcount : f.count = none)
    (hwdata : f.wdata = none) (w : WidthClass) (o : Order) (B : Int) :
    writeField w o B (f.apply s) = f.apply (writeField w o B s) :=
  writeField_map (h.sameWindow s) (count_apply hcount) (wdata_apply hwdata) raise_apply
    h.raise_scramble_apply h.succeed_writeBack_apply w o B

theorem KeepsWindow.readBitAt_apply (h : f.KeepsWindow) (hrdata : f.rdata = none) (o : Order)
    (B : Int) : readBitAt o B (f.apply s) = f.apply (readBitAt o B s) :=
  readBitAt_map (h.sameWindow s) raise_apply
    (fun v => by rw [setRdata_apply hrdata, succeed_apply]) o B

theorem KeepsWindow.writeBitAt_apply (h : f.KeepsWindow)
    (hbit : (f.apply s).wdata.getLsbD 0 = s.wdata.getLsbD 0) (o : Order) (B : Int) :
    writeBitAt o B (f.apply s) = f.apply (writeBitAt o B s) :=
  writeBitAt_map (h.sameWindow s) hbit raise_apply h.raise_scramble_apply
    h.succeed_writeBack_apply o B

theorem advance_apply (hpos : f.pos = none) (n : Word32) :
    advance n (f.apply s) = f.apply (advance n s) := by
  by_cases hok : s.err = .ok
  · rw [advance_of_ok n hok, advance_of_ok n (s := f.apply s) hok, pos_apply hpos, setPos_apply hpos]
  · rw [advance_of_fault n hok, advance_of_fault n (s := f.apply s) hok]

/-! ### What each kind of command does not read (R112) -/

variable (w : WidthClass) (g : Sign) (o : Order) (d : Origin)

theorem KeepsWindow.exec_read_apply (h : f.KeepsWindow) (hoffset : f.offset = none)
    (hcount : f.count = none) (hrdata : f.rdata = none) :
    exec (Instr.read w g o .window) (f.apply s) =
      mapNext f.apply (exec (Instr.read w g o .window) s) := by
  rw [exec_readWindow, exec_readWindow, offset_apply hoffset, h.readField_apply hcount hrdata]
  rfl

theorem exec_readScalar_apply (hoffset : f.offset = none) (hcount : f.count = none)
    (hscalar : f.scalar = none) (hrdata : f.rdata = none) :
    exec (Instr.read w g o .scalar) (f.apply s) =
      mapNext f.apply (exec (Instr.read w g o .scalar) s) := by
  rw [exec_readScalar, exec_readScalar]
  simp only [mapNext, readScalar, scalarOperand, offset_apply hoffset, count_apply hcount,
    params_apply, scalar_apply hscalar, setRdata_apply hrdata, raise_apply, succeed_apply]
  split <;> rfl

theorem KeepsWindow.exec_write_apply (h : f.KeepsWindow) (hoffset : f.offset = none)
    (hcount : f.count = none) (hwdata : f.wdata = none) :
    exec (Instr.write w g o .window) (f.apply s) =
      mapNext f.apply (exec (Instr.write w g o .window) s) := by
  rw [exec_writeWindow, exec_writeWindow, offset_apply hoffset, h.writeField_apply hcount hwdata]
  rfl

theorem exec_writeScalar_apply (hoffset : f.offset = none) (hcount : f.count = none)
    (hwdata : f.wdata = none) (hscalar : f.scalar = none) :
    exec (Instr.write w g o .scalar) (f.apply s) =
      mapNext f.apply (exec (Instr.write w g o .scalar) s) := by
  rw [exec_writeScalar, exec_writeScalar]
  simp only [mapNext, writeScalar, scalarOperand, offset_apply hoffset, count_apply hcount,
    params_apply, wdata_apply hwdata, scalar_apply hscalar, setScalar_apply hscalar, raise_apply,
    succeed_apply]
  split <;> rfl

theorem KeepsWindow.exec_readBit_apply (h : f.KeepsWindow) (hoffset : f.offset = none)
    (hrdata : f.rdata = none) :
    exec (Instr.readBit o) (f.apply s) = mapNext f.apply (exec (Instr.readBit o) s) := by
  rw [exec_readBit, exec_readBit, offset_apply hoffset, h.readBitAt_apply hrdata]
  rfl

theorem KeepsWindow.exec_writeBit_apply (h : f.KeepsWindow) (hoffset : f.offset = none)
    (hbit : (f.apply s).wdata.getLsbD 0 = s.wdata.getLsbD 0) :
    exec (Instr.writeBit o) (f.apply s) = mapNext f.apply (exec (Instr.writeBit o) s) := by
  rw [exec_writeBit, exec_writeBit, offset_apply hoffset, h.writeBitAt_apply hbit]
  rfl

theorem KeepsWindow.exec_cursorRead_apply (h : f.KeepsWindow) (hpos : f.pos = none)
    (hcount : f.count = none) (hrdata : f.rdata = none) :
    exec (Instr.cursorRead w g o) (f.apply s) = mapNext f.apply (exec (Instr.cursorRead w g o) s) := by
  rw [exec_cursorRead, exec_cursorRead, cursorReadField, pos_apply hpos,
    count_apply hcount, h.readField_apply hcount hrdata, advance_apply hpos]
  rfl

theorem KeepsWindow.exec_cursorWrite_apply (h : f.KeepsWindow) (hpos : f.pos = none)
    (hcount : f.count = none) (hwdata : f.wdata = none) :
    exec (Instr.cursorWrite w g o) (f.apply s) =
      mapNext f.apply (exec (Instr.cursorWrite w g o) s) := by
  rw [exec_cursorWrite, exec_cursorWrite, cursorWriteField, pos_apply hpos,
    count_apply hcount, h.writeField_apply hcount hwdata, advance_apply hpos]
  rfl

theorem KeepsWindow.exec_cursorReadBit_apply (h : f.KeepsWindow) (hpos : f.pos = none)
    (hrdata : f.rdata = none) :
    exec (Instr.cursorReadBit o) (f.apply s) = mapNext f.apply (exec (Instr.cursorReadBit o) s) := by
  rw [exec_cursorReadBit, exec_cursorReadBit, cursorReadBitAt, pos_apply hpos,
    h.readBitAt_apply hrdata, advance_apply hpos]
  rfl

theorem KeepsWindow.exec_cursorWriteBit_apply (h : f.KeepsWindow) (hpos : f.pos = none)
    (hbit : (f.apply s).wdata.getLsbD 0 = s.wdata.getLsbD 0) :
    exec (Instr.cursorWriteBit o) (f.apply s) =
      mapNext f.apply (exec (Instr.cursorWriteBit o) s) := by
  rw [exec_cursorWriteBit, exec_cursorWriteBit, cursorWriteBitAt, pos_apply hpos,
    h.writeBitAt_apply hbit, advance_apply hpos]
  rfl

theorem exec_seek_apply (hoffset : f.offset = none) (hpos : f.pos = none)
    (hlen : f.winLen = none) :
    exec (Instr.seek d) (f.apply s) = mapNext f.apply (exec (Instr.seek d) s) := by
  have htarget : seekTarget d (f.apply s) = seekTarget d s := by
    cases d <;> simp only [seekTarget, offset_apply hoffset, pos_apply hpos, winLen_apply hlen]
  rw [exec_seek, exec_seek]
  rcases seekTo_cases d s with ⟨hb, e⟩ | ⟨hb, e⟩
  · rw [e, seekTo, if_neg (by simp [apply, hb])]
    rfl
  · rw [e, seekTo, if_pos (by simp [apply, hb]), htarget, setPos_apply hpos]
    rfl

theorem exec_bind_apply (hbase : f.wbase = none) (hreq : f.wlenReq = none)
    (hwinBase : f.winBase = none) (hwinLen : f.winLen = none) (hpos : f.pos = none) :
    exec .bind (f.apply s) = mapNext f.apply (exec .bind s) := by
  have hbound : bindBase (f.apply s) = bindBase s := by
    rw [bindBase, wbase_apply hbase]
    rfl
  rw [exec_bind, exec_bind, bindWindow, bindWindow, wlenReq_apply hreq, hbound,
    setWindow_apply hwinBase hwinLen, setPos_apply hpos]
  split <;> rfl

end Overwrite

/-- Settles O44: each clause overwrites registers that the operation of its command neither reads nor
writes. -/
theorem commandsReadOnlyTheirOperands : Obligations.CommandsReadOnlyTheirOperands := by
  intro w g o d s a b v x y z e f m q v'
  refine ⟨?_, ?_, ?_, ?_, ?_, fun hbit => ?_, ?_, ?_, ?_, fun hbit => ?_, ?_, ?_⟩
  · exact Overwrite.KeepsWindow.exec_read_apply
      (f := { pos := a, wdata := v, scalar := x, wbase := z, wlenReq := e }) w g o {} rfl rfl rfl
  · exact Overwrite.exec_readScalar_apply
      (f := { pos := a, wdata := v, wbase := z, wlenReq := e, winBase := y, winLen := f, mem := some m
              port := q }) w g o rfl rfl rfl rfl
  · exact Overwrite.KeepsWindow.exec_write_apply
      (f := { pos := a, rdata := y, scalar := x, wbase := z, wlenReq := e }) w g o {} rfl rfl rfl
  · exact Overwrite.exec_writeScalar_apply
      (f := { pos := a, rdata := x, wbase := z, wlenReq := e, winBase := y, winLen := f, mem := some m
              port := q }) w g o rfl rfl rfl rfl
  · exact Overwrite.KeepsWindow.exec_readBit_apply
      (f := { count := b, pos := a, wdata := v, scalar := x, wbase := z, wlenReq := e }) o {} rfl rfl
  · exact Overwrite.KeepsWindow.exec_writeBit_apply
      (f := { count := b, pos := a, wdata := v', rdata := y, scalar := x, wbase := z, wlenReq := e })
      o {} rfl hbit
  · exact Overwrite.KeepsWindow.exec_cursorRead_apply
      (f := { offset := a, wdata := v, scalar := x, wbase := z, wlenReq := e }) w g o {} rfl rfl rfl
  · exact Overwrite.KeepsWindow.exec_cursorWrite_apply
      (f := { offset := a, rdata := y, scalar := x, wbase := z, wlenReq := e }) w g o {} rfl rfl rfl
  · exact Overwrite.KeepsWindow.exec_cursorReadBit_apply
      (f := { offset := a, count := b, wdata := v, scalar := x, wbase := z, wlenReq := e })
      o {} rfl rfl
  · exact Overwrite.KeepsWindow.exec_cursorWriteBit_apply
      (f := { offset := a, count := b, wdata := v', rdata := y, scalar := x, wbase := z
              wlenReq := e }) o {} rfl hbit
  · exact Overwrite.exec_seek_apply
      (f := { count := b, wdata := v, rdata := y, scalar := x, wbase := z, wlenReq := e, mem := some m
              port := q }) d rfl rfl rfl
  · exact Overwrite.exec_bind_apply
      (f := { offset := a, count := b, wdata := v, rdata := y, scalar := x, mem := some m
              port := q }) rfl rfl rfl rfl rfl

end Sys2Proof.Machine
end

section
/-! Proofs. The laws of the masking core at the commands: a window field reads (O8), is written (O15, O17)
and reads back (O24) as the bit-by-bit reference says, writes of disjoint fields commute (O25), and the two
orders are dual, in a reading (O27) and in the insert mask (O28). -/

namespace Sys2Proof.Machine

/-! ## Legal window fields with no port error: O8, O15, O17 -/

theorem FieldLegal.readField_of_port {s : State} {w : WidthClass} {B : Int} (h : FieldLegal s w B)
    (hp : PortReads s (fieldAddrs s B)) (g : Sign) (o : Order) :
    readField w g o B s = succeed (s.setRdata (present g (widthBits s.params w) (sint s.count).toNat
      (BitVec.ofNat 64 (refRead (winRead s) o B.toNat (sint s.count).toNat)))) := by
  rw [h.readField_eq, readErrs_eq_false.mpr hp]
  rfl

/-- Settles O8, by what a legal window read puts in RDATA. -/
theorem windowReadIsTheReferenceReading : Obligations.WindowReadIsTheReferenceReading := by
  intro w g o s h hp
  rw [exec_readWindow, h.readField_of_port hp]
  rfl

/-- Memory `m` is `s`'s with WDATA written as the field of COUNT bits at `B` (R147, R151). -/
structure FieldStored (s : State) (o : Order) (B : Int) (m : Memory) : Prop where
  canonical : m.wf = true
  inSpan : ∀ p, byteIndex B ≤ p / 8 → p / 8 < byteIndex B + fieldBytes s B →
    streamBit (heldByte (s.setMem m)) o p =
      refWriteBit (winRead s) o B.toNat (sint s.count).toNat s.wdata p
  outside : ∀ x, x ∉ fieldAddrs s B → m.read x = s.mem.read x

/-- A legal window write with no port error changes window memory only, and stores the field there. -/
theorem FieldLegal.writeField_stores {s : State} {w : WidthClass} {B : Int} (h : FieldLegal s w B)
    (hm : s.mem.wf = true) (hp : PortWrites s (fieldAddrs s B))
    (hk : fieldBytes s B ≤ s.params.addrSpace) (o : Order) :
    ∃ m, writeField w o B s = succeed (s.setMem m) ∧ FieldStored s o B m := by
  obtain ⟨m, f, hw, hK, hf⟩ := writeBack_eq s (byteIndex B) (mergedBytes s w o B)
  rw [length_mergedBytes] at hK hf
  have hset : writeBack s (byteIndex B) (mergedBytes s w o B) = s.setMem m := by
    rw [hw, hf hk]
    rfl
  refine ⟨m, ?_, hK.canonical hm, fun p h1 h2 => ?_, hK.outside⟩
  · rw [h.writeField_eq, writeErrs_eq_false.mpr hp, hset]
    rfl
  · rw [← hset]
    exact h.streamBit_writeBack o hm hk h1 h2

/-- Settles O15, by what a legal window write stores. -/
theorem windowWriteSetsExactlyTheField : Obligations.WindowWriteSetsExactlyTheField := by
  intro w g o s hm h hp hk
  obtain ⟨m, e, hcanonical, hinSpan, houtside⟩ := h.writeField_stores hm hp hk o
  exact ⟨m, by rw [exec_writeWindow, e]; rfl, hcanonical, hinSpan, houtside⟩

/-- Settles O17: the write at POS stores the field there, and it succeeded, so POS advances. -/
theorem cursorWriteSetsTheFieldAndAdvances : Obligations.CursorWriteSetsTheFieldAndAdvances := by
  intro w g o s hm h hp hk
  obtain ⟨m, e, hcanonical, hinSpan, houtside⟩ := h.writeField_stores hm hp hk o
  refine ⟨m, ?_, hcanonical, hinSpan, houtside⟩
  rw [exec_cursorWrite, cursorWriteField, e, advance_of_ok _ (succeed_err _)]
  rfl

/-! ## A written field reads back: O24 -/

/-- The bytes of a field's bits are in its span (R21). -/
theorem div_mem_span {s : State} {B : Int} {p : Nat} (h1 : B.toNat ≤ p)
    (h2 : p < B.toNat + (sint s.count).toNat) :
    byteIndex B ≤ p / 8 ∧ p / 8 < byteIndex B + fieldBytes s B := by
  have e := byteIndex_subOffset B
  have hspan := (spanLength_spec (subOffset B) (sint s.count).toNat (subOffset_le B)).2.2.1 (by omega)
  unfold fieldBytes
  omega

/-- R155: the reference reading of a stored field is the value written, truncated. -/
theorem FieldStored.refRead_eq {s : State} {o : Order} {B : Int} {m : Memory}
    (h : FieldStored s o B m) (hn : (sint s.count).toNat ≤ 64) :
    BitVec.ofNat 64 (refRead (heldByte (s.setMem m)) o B.toNat (sint s.count).toNat) =
      trunc s.wdata (sint s.count).toNat := by
  apply BitVec.eq_of_getLsbD_eq
  intro i hi
  rw [getLsbD_refRead _ _ _ hn, getLsbD_trunc]
  by_cases hin : i < (sint s.count).toNat
  · have hwt := fieldWeight_lt (ord := o) hin
    have hspan := div_mem_span (s := s) (B := B) (Nat.le_add_right _ _) (Nat.add_lt_add_left hwt _)
    rw [h.inSpan _ hspan.1 hspan.2, refWriteBit, if_pos (by omega), Nat.add_sub_cancel_left,
      fieldWeight_fieldWeight hin]
    simp [hin, hi]
  · simp [hin]

/-- Settles O24: the read after the write is legal too, and what it reads is what was stored. -/
theorem writtenFieldReadsBack : Obligations.WrittenFieldReadsBack := by
  intro w g g' o s hm hrace h hp hk
  obtain ⟨m, e, hstored⟩ := h.writeField_stores hm hp hk o
  have ht : FieldLegal (succeed (s.setMem m)) w (sint (succeed (s.setMem m)).offset) := { h with }
  have hpt : PortReads (succeed (s.setMem m)) (fieldAddrs (succeed (s.setMem m)) (sint s.offset)) :=
    fun x hx => (hp x hx).1
  have hn : (sint s.count).toNat ≤ 64 := by
    have := (isWidth_widthBits s.params w).le
    have := h.countWidth
    omega
  have hwrite := exec_writeWindow w g o s
  have hread := exec_readWindow w g' o (succeed (s.setMem m))
  rw [e] at hwrite
  rw [ht.readField_of_port hpt] at hread
  refine ⟨_, _, hwrite, hread, rfl, ?_⟩
  rw [← hstored.refRead_eq hn, ← winRead_of_noRace (s := s.setMem m) hrace]
  rfl

/-! ## Writes of disjoint fields commute: O25 -/

/-- `t`'s window memory is `s`'s with `v` written as the field of `n` bits at `B`, said of every index of
the window (R151). -/
structure WindowWritten (s t : State) (o : Order) (B n : Nat) (v : Word64) : Prop where
  params : t.params = s.params
  winBase : t.winBase = s.winBase
  winLen : t.winLen = s.winLen
  canonical : t.mem.wf = true
  inWindow : ∀ p, p / 8 < s.winLen.toNat →
    streamBit (heldByte t) o p = refWriteBit (heldByte s) o B n v p
  outside : ∀ x, (∀ i < s.winLen.toNat, x ≠ winAddr s i) → t.mem.read x = s.mem.read x

/-- The span of a legal field in a window that does not overlap itself does not overlap itself. -/
theorem FieldLegal.fieldBytes_le {s : State} {w : WidthClass} {B : Int} (h : FieldLegal s w B)
    (hwin : s.winLen.toNat ≤ s.params.addrSpace) : fieldBytes s B ≤ s.params.addrSpace := by
  by_contra hk
  have := h.index_lt (j := fieldBytes s B - 1) (by omega)
  omega

/-- A legal write in a window that does not overlap itself keeps the window's bits outside the field,
those of the span and the others (R156). -/
theorem FieldStored.windowWritten {s : State} {w : WidthClass} {o : Order} {B : Int} {m : Memory}
    (hs : FieldStored s o B m) (h : FieldLegal s w B) (hwin : s.winLen.toNat ≤ s.params.addrSpace)
    (hrace : s.raced = []) :
    WindowWritten s (succeed (s.setMem m)) o B.toNat (sint s.count).toNat s.wdata where
  params := rfl
  winBase := rfl
  winLen := rfl
  canonical := hs.canonical
  inWindow p hp := by
    by_cases hspan : byteIndex B ≤ p / 8 ∧ p / 8 < byteIndex B + fieldBytes s B
    · rw [← winRead_of_noRace hrace]
      exact hs.inSpan p hspan.1 hspan.2
    · have hkept : winAddr s (p / 8) ∉ fieldAddrs s B := fun hmem => by
        obtain ⟨j, hj, e⟩ := mem_spanAddrs.mp hmem
        have := winAddr_inj (a := 0) hwin hp (h.index_lt hj) (by simpa using e)
        omega
      have hbyte : heldByte (succeed (s.setMem m)) (p / 8) = heldByte s (p / 8) :=
        hs.outside _ hkept
      rw [refWriteBit, if_neg fun hin => hspan (div_mem_span hin.1 hin.2), streamBit_eq, hbyte,
        streamBit_eq]
  outside x hx := hs.outside x fun hmem => by
    obtain ⟨j, hj, e⟩ := mem_spanAddrs.mp hmem
    exact hx _ (h.index_lt hj) e

/-- A legal write to a window that does not overlap itself, with no port error and no race. -/
theorem FieldLegal.exec_write {s : State} {w : WidthClass} (h : FieldLegal s w (sint s.offset))
    (hm : s.mem.wf = true) (hwin : s.winLen.toNat ≤ s.params.addrSpace)
    (hport : s.port = { readErrs := [], writeErrs := [] }) (hrace : s.raced = []) (g : Sign)
    (o : Order) :
    ∃ m, exec (Instr.write w g o .window) s = .next (succeed (s.setMem m)) ∧
      WindowWritten s (succeed (s.setMem m)) o (sint s.offset).toNat (sint s.count).toNat s.wdata := by
  have hp : PortWrites s (fieldAddrs s (sint s.offset)) := fun x _ => by simp [hport]
  obtain ⟨m, e, hstored⟩ := h.writeField_stores hm hp (h.fieldBytes_le hwin) o
  exact ⟨m, by rw [exec_writeWindow, e], hstored.windowWritten h hwin hrace⟩

/-- The bits of two writes to disjoint fields, in either order (R156). -/
theorem refWriteBit_comm {byte byte₁ byte₂ : Nat → Byte} {o : Order} {B₁ n₁ B₂ n₂ : Nat}
    {v₁ v₂ : Word64} {p : Nat} (hd : B₁ + n₁ ≤ B₂ ∨ B₂ + n₂ ≤ B₁)
    (h₁ : streamBit byte₁ o p = refWriteBit byte o B₁ n₁ v₁ p)
    (h₂ : streamBit byte₂ o p = refWriteBit byte o B₂ n₂ v₂ p) :
    refWriteBit byte₁ o B₂ n₂ v₂ p = refWriteBit byte₂ o B₁ n₁ v₁ p := by
  unfold refWriteBit at *
  rw [h₁, h₂]
  by_cases hin₁ : B₁ ≤ p ∧ p < B₁ + n₁
  · rw [if_pos hin₁, if_pos hin₁, if_neg (by omega)]
  · rw [if_neg hin₁, if_neg hin₁]

theorem WindowWritten.winAddr_eq {s t : State} {o : Order} {B n : Nat} {v : Word64}
    (h : WindowWritten s t o B n v) (i : Nat) : winAddr t i = winAddr s i := by
  rw [winAddr, winAddr, h.params, h.winBase]

/-- Two writes of one order to disjoint fields of one window leave the same memory in either order: a byte
of the window is known by its stream bits, and the rest of memory is kept (R156). -/
theorem WindowWritten.comm {s t₁ t₂ u₁ u₂ : State} {o : Order} {B₁ n₁ B₂ n₂ : Nat} {v₁ v₂ : Word64}
    (h₁ : WindowWritten s t₁ o B₁ n₁ v₁) (h₁₂ : WindowWritten t₁ u₁ o B₂ n₂ v₂)
    (h₂ : WindowWritten s t₂ o B₂ n₂ v₂) (h₂₁ : WindowWritten t₂ u₂ o B₁ n₁ v₁)
    (hd : B₁ + n₁ ≤ B₂ ∨ B₂ + n₂ ≤ B₁) : u₁.mem = u₂.mem := by
  refine Memory.ext h₁₂.canonical h₂₁.canonical fun x => ?_
  by_cases hx : ∀ i < s.winLen.toNat, x ≠ winAddr s i
  · calc u₁.mem.read x
      _ = t₁.mem.read x := h₁₂.outside x (by simpa only [h₁.winLen, h₁.winAddr_eq] using hx)
      _ = s.mem.read x := h₁.outside x hx
      _ = t₂.mem.read x := (h₂.outside x hx).symm
      _ = u₂.mem.read x :=
        (h₂₁.outside x (by simpa only [h₂.winLen, h₂.winAddr_eq] using hx)).symm
  · push Not at hx
    obtain ⟨i, hi, rfl⟩ := hx
    have hheld : heldByte u₁ i = heldByte u₂ i := byte_eq_of_streamBit o i fun p hp => by
      have hps : p / 8 < s.winLen.toNat := hp ▸ hi
      have hbits : streamBit (heldByte u₁) o p = streamBit (heldByte u₂) o p := by
        rw [h₁₂.inWindow p (h₁.winLen ▸ hps), h₂₁.inWindow p (h₂.winLen ▸ hps),
          refWriteBit_comm hd (h₁.inWindow p hps) (h₂.inWindow p hps)]
      simpa only [streamBit_eq, hp] using hbits
    rwa [heldByte, heldByte, h₁₂.winAddr_eq, h₁.winAddr_eq, h₂₁.winAddr_eq, h₂.winAddr_eq] at hheld

/-- Settles O25: each of the four writes is one of the window, the second ones of what the first ones
left. -/
theorem disjointWritesCommute : Obligations.DisjointWritesCommute := by
  intro w₁ w₂ g₁ g₂ o s B₁ n₁ B₂ n₂ v₁ v₂ hm hwin hport hrace hl₁ hl₂ hd
  obtain ⟨m₁, e₁, h₁⟩ := FieldLegal.exec_write (s := withOperands s B₁ n₁ v₁) hl₁ hm hwin hport hrace g₁ o
  obtain ⟨m₂, e₂, h₂⟩ := FieldLegal.exec_write (s := withOperands s B₂ n₂ v₂) hl₂ hm hwin hport hrace g₂ o
  have hl₁₂ : FieldLegal (withOperands (succeed ((withOperands s B₁ n₁ v₁).setMem m₁)) B₂ n₂ v₂) w₂
      (sint B₂) := { hl₂ with }
  have hl₂₁ : FieldLegal (withOperands (succeed ((withOperands s B₂ n₂ v₂).setMem m₂)) B₁ n₁ v₁) w₁
      (sint B₁) := { hl₁ with }
  obtain ⟨m₁₂, e₁₂, h₁₂⟩ := hl₁₂.exec_write h₁.canonical hwin hport hrace g₂ o
  obtain ⟨m₂₁, e₂₁, h₂₁⟩ := hl₂₁.exec_write h₂.canonical hwin hport hrace g₁ o
  have hB₁ : 0 ≤ sint B₁ := hl₁.offsetNonneg
  have hn₁ : 0 ≤ sint n₁ := hl₁.countNonneg
  have hB₂ : 0 ≤ sint B₂ := hl₂.offsetNonneg
  have hn₂ : 0 ≤ sint n₂ := hl₂.countNonneg
  have hdNat : (sint B₁).toNat + (sint n₁).toNat ≤ (sint B₂).toNat ∨
      (sint B₂).toNat + (sint n₂).toNat ≤ (sint B₁).toNat := by omega
  exact ⟨_, _, _, _, e₁, e₁₂, e₂, e₂₁,
    WindowWritten.comm (s := s) { h₁ with } { h₁₂ with } { h₂ with } { h₂₁ with } hdNat⟩

/-! ## The two orders are dual: O27 and O28 -/

/-- In LSB order the partial sums of R150 fill the value from its low end. -/
theorem refSum_lsb_lt (byte : Nat → Byte) (B n k : Nat) : refSum byte .lsb B n k < 2 ^ k := by
  induction k with
  | zero => simp [refSum]
  | succ k ih =>
    have hbit := Nat.mul_le_mul_right (2 ^ k) (Bool.toNat_le (streamBit byte .lsb (B + k)))
    rw [refSum, fieldWeight, Nat.pow_succ]
    omega

/-- In MSB order they fill it from its high end. -/
theorem refSum_msb_le (byte : Nat → Byte) (B : Nat) {n k : Nat} (hk : k ≤ n) :
    refSum byte .msb B n k + 2 ^ (n - k) ≤ 2 ^ n := by
  induction k with
  | zero => simp [refSum]
  | succ k ih =>
    have ih := ih (by omega)
    have hbit := Nat.mul_le_mul_right (2 ^ (n - 1 - k)) (Bool.toNat_le (streamBit byte .msb (B + k)))
    rw [show n - k = n - 1 - k + 1 by omega, Nat.pow_succ] at ih
    rw [refSum, fieldWeight, show n - (k + 1) = n - 1 - k by omega]
    omega

/-- A reading of `n` bits has no bit above them. -/
theorem refRead_lt (byte : Nat → Byte) (o : Order) (B n : Nat) : refRead byte o B n < 2 ^ n := by
  cases o with
  | lsb => exact refSum_lsb_lt byte B n n
  | msb =>
    have h := refSum_msb_le byte B (Nat.le_refl n)
    rwa [Nat.sub_self, Nat.pow_zero, Nat.add_one_le_iff] at h

/-- Bit `i` of the reference reading, as a number (R150). -/
theorem testBit_refRead (byte : Nat → Byte) (o : Order) (B : Nat) {n : Nat} (hn : n ≤ 64) (i : Nat) :
    (refRead byte o B n).testBit i =
      (decide (i < n) && streamBit byte o (B + fieldWeight o n i)) := by
  by_cases hi : i < n
  · rw [← getLsbD_refRead byte o B hn, BitVec.getLsbD_ofNat]
    simp [show i < 64 by omega]
  · have hlt : refRead byte o B n < 2 ^ i :=
      Nat.lt_of_lt_of_le (refRead_lt byte o B n) (Nat.pow_le_pow_right (by decide) (by omega))
    simp [hi, Nat.testBit_lt_two_pow hlt]

/-- The LSB stream of the bit-reversed bytes is the MSB stream of the bytes (R22). -/
theorem streamBit_reverse (byte : Nat → Byte) (p : Nat) :
    streamBit (fun i => (byte i).reverse) .lsb p = streamBit byte .msb p := by
  simp only [streamBit, getLsbD_reverse_byte, Nat.mod_lt p (show 8 > 0 by decide), decide_true,
    Bool.true_and]

/-- A whole byte reads as it is held, in either order (R150). -/
theorem refRead_wholeByte (byte : Nat → Byte) (o : Order) (a : Nat) :
    refRead byte o (8 * a) 8 = (byte a).toNat := by
  apply Nat.eq_of_testBit_eq
  intro i
  rw [testBit_refRead _ _ _ (by decide), ← BitVec.getLsbD]
  by_cases hi : i < 8
  · have hplace : streamPlace o (8 * a + fieldWeight o 8 i) % 8 = i := by
      cases o <;> simp only [streamPlace, msbPlace, fieldWeight] <;> omega
    have hwt := fieldWeight_lt (ord := o) hi
    rw [streamBit_eq, hplace, show (8 * a + fieldWeight o 8 i) / 8 = a by omega]
    simp [hi]
  · simp [hi, BitVec.getLsbD_of_ge (byte a) i (by omega)]

/-- Settles O27: bit `i` of the MSB field and bit `n-1-i` of the LSB field of the reversed bytes are the
same stream bit. -/
theorem msbFieldIsTheReversedLsbField : Obligations.MsbFieldIsTheReversedLsbField := by
  refine ⟨fun byte B n hn => ?_, fun byte a =>
    ⟨refRead_wholeByte byte .msb a, refRead_wholeByte byte .lsb a⟩⟩
  apply BitVec.eq_of_getLsbD_eq
  intro i hi
  rw [revBits, BitVec.getLsbD_reverse, BitVec.getMsbD, BitVec.getLsbD_ofNat, BitVec.getLsbD_ofNat,
    testBit_refRead _ _ _ hn, testBit_refRead _ _ _ hn, streamBit_reverse]
  simp [fieldWeight, hi, show n - 1 - i < n by omega]

/-- R138 for every staged width of whole bytes: place `i` of either mask is set when the stream position
that it names in MSB order is in the field. -/
theorem revBytes_fieldMask {SW : Nat} (hSW : 8 ∣ SW) {o n : Nat} (h : o + n ≤ SW) :
    revBytes (fieldMask SW n <<< (SW - n - o)) = revByteBits (fieldMask SW n <<< o) := by
  apply BitVec.eq_of_getLsbD_eq
  intro i hi
  have hp : msbPlace i < SW := msbPlace_lt hSW hi
  have hr : 8 * (SW / 8 - 1 - i / 8) + i % 8 = SW - 1 - msbPlace i := by unfold msbPlace; omega
  rw [getLsbD_revBytes hSW, getLsbD_revByteBits hSW, hr]
  simp only [BitVec.getLsbD_shiftLeft, getLsbD_fieldMask (show n ≤ SW by omega)]
  generalize msbPlace i = p at *
  rw [Bool.eq_iff_iff]
  simp only [Bool.and_eq_true, Bool.not_eq_true', decide_eq_true_eq, decide_eq_false_iff_not]
  omega

/-- Settles O28; the four staged widths are whole bytes. -/
theorem msbInsertMaskIsByteBitReversal : Obligations.MsbInsertMaskIsByteBitReversal := by
  intro SW hmem o n _ h
  have hSW : 8 ∣ SW := (show ∀ W ∈ [8, 16, 32, 64], 8 ∣ W by decide) SW hmem
  exact revBytes_fieldMask hSW h

end Sys2Proof.Machine
end

section
/-! Proofs. How a read result is presented in RDATA (O9), and the class of a pointer-width command (O22). -/

namespace Sys2Proof.Machine

/-! ## The presentation of a read result: O9 -/

/-- R17: above the low `n` bits every bit is a copy of bit `n-1`, and without bits there is none to copy. -/
theorem getLsbD_sext (N : Nat) {M : Nat} (v : BitVec M) (n i : Nat) :
    (sext N v n).getLsbD i =
      (decide (i < N) && decide (0 < n) && v.getLsbD (if i < n then i else n - 1)) := by
  rw [sext, BitVec.getLsbD_signExtend, Bool.and_assoc]
  congr 1
  split
  · next hi => simp [hi, show 0 < n by omega]
  · rw [BitVec.msb_setWidth]

/-- R174: the widening to 64 bits copies the sign of the field itself, so RDATA does not show the width
class. -/
theorem present_signed {W n : Nat} (hn : n ≤ W) (hW : W ≤ 64) (r : Word64) :
    present .signed W n r = sext 64 r n := by
  apply BitVec.eq_of_toInt_eq
  rw [present, sext, BitVec.setWidth_eq, BitVec.toInt_signExtend_of_le hW, sext,
    BitVec.toInt_signExtend_of_le hn, sext, BitVec.toInt_signExtend_of_le (hn.trans hW)]

/-- Settles O9, by the bits of the sign extension. -/
theorem presentationExtendsTheField : Obligations.PresentationExtendsTheField := by
  intro p w n r hn
  have hW : widthBits p w ≤ 64 := (isWidth_widthBits p w).le
  refine ⟨rfl, ?_, fun hpos i hi => ?_⟩
  · rw [present_signed (Nat.zero_le _) hW]
    exact BitVec.eq_of_getLsbD_eq fun i _ => by simp [getLsbD_sext]
  · rw [present_signed hn hW, getLsbD_sext]
    simp [hi, hpos]

/-! ## The class of a pointer-width command: O22 -/

/-- R175, R11: `PTR_W` is the width of the class that it fixes. -/
theorem widthBits_ptr (p : Params) :
    widthBits p .ptr = widthBits p (if p.ptr64 then .w64 else .w32) := by
  cases h : p.ptr64 <;> simp [widthBits, Params.ptrW, h]

/-! ### A class enters a command only by its width -/

section
variable {s : State} {w w' : WidthClass} (h : widthBits s.params w = widthBits s.params w')
include h

theorem readField_congr_width (g : Sign) (o : Order) (B : Int) :
    readField w g o B s = readField w' g o B s := by
  rw [readField, readField, h]

theorem writeField_congr_width (o : Order) (B : Int) : writeField w o B s = writeField w' o B s := by
  rw [writeField, writeField, h]

theorem readScalar_congr_width (g : Sign) (o : Order) : readScalar w g o s = readScalar w' g o s := by
  rw [readScalar, readScalar, h]

theorem writeScalar_congr_width (o : Order) : writeScalar w o s = writeScalar w' o s := by
  rw [writeScalar, writeScalar, h]

theorem exec_read_congr_width (g : Sign) (o : Order) (k : Source) :
    exec (Instr.read w g o k) s = exec (Instr.read w' g o k) s := by
  cases k with
  | window => rw [exec_readWindow, exec_readWindow, readField_congr_width h]
  | scalar => rw [exec_readScalar, exec_readScalar, readScalar_congr_width h]

theorem exec_write_congr_width (g : Sign) (o : Order) (k : Source) :
    exec (Instr.write w g o k) s = exec (Instr.write w' g o k) s := by
  cases k with
  | window => rw [exec_writeWindow, exec_writeWindow, writeField_congr_width h]
  | scalar => rw [exec_writeScalar, exec_writeScalar, writeScalar_congr_width h]

theorem exec_cursorRead_congr_width (g : Sign) (o : Order) :
    exec (Instr.cursorRead w g o) s = exec (Instr.cursorRead w' g o) s := by
  rw [exec_cursorRead, exec_cursorRead, cursorReadField, readField_congr_width h, cursorReadField]

theorem exec_cursorWrite_congr_width (g : Sign) (o : Order) :
    exec (Instr.cursorWrite w g o) s = exec (Instr.cursorWrite w' g o) s := by
  rw [exec_cursorWrite, exec_cursorWrite, cursorWriteField, writeField_congr_width h, cursorWriteField]

end

/-- Settles O22: the two classes have one width, and each of the four families runs by its width. -/
theorem pointerClassIsTheFixedClass : Obligations.PointerClassIsTheFixedClass := by
  rintro g o k s w rfl
  have h := widthBits_ptr s.params
  exact ⟨exec_read_congr_width h g o k, exec_write_congr_width h g o k,
    exec_cursorRead_congr_width h g o, exec_cursorWrite_congr_width h g o⟩

end Sys2Proof.Machine
end

section
/-! Proofs. A legal single-bit command is the multi-bit window command of one bit at the same place: RDBIT
the unsigned read (O12), WRBIT the write (O23), port errors included. -/

namespace Sys2Proof.Machine

/-! ## One-bit fields -/

section
variable {s : State} (hn : s.count = 1)
include hn

theorem sint_count_one : sint s.count = 1 := by rw [hn]; rfl

/-- R21: the span of a one-bit field is the byte that holds the bit. -/
theorem fieldBytes_one (B : Int) : fieldBytes s B = 1 := by
  have ho := subOffset_le B
  rw [fieldBytes, sint_count_one hn, Int.toNat_one, spanLength, if_neg Nat.one_ne_zero]
  omega

theorem fieldAddrs_one (B : Int) : fieldAddrs s B = [winAddr s (byteIndex B)] := by
  rw [fieldAddrs, fieldBytes_one hn]
  rfl

/-- Where the access check of a bit (R290) passes, so does the validation of one bit (R171), in every
width class. -/
theorem BitLegal.fieldLegal {B : Int} (h : BitLegal s B) (w : WidthClass) : FieldLegal s w B := by
  obtain ⟨hbound, hlow, hhigh⟩ := h
  have hcount := sint_count_one hn
  have hW : 8 ≤ widthBits s.params w := by
    rcases isWidth_widthBits s.params w with h | h | h | h <;> omega
  exact ⟨hbound, by omega, by omega, by omega, by omega⟩

end

/-! ## Single-bit reads: O12 -/

/-- R150: the reference reading of one bit is the stream bit. -/
theorem refRead_one (byte : Nat → Byte) (o : Order) (B : Nat) :
    refRead byte o B 1 = (streamBit byte o B).toNat := by
  cases o <;> simp [refRead, refSum, fieldWeight]

/-- R291, R292: the bit read and the unsigned one-bit field read agree, in every width class. -/
theorem BitLegal.readBitAt_eq_readField {s : State} {B : Int} (h : BitLegal s B) (hn : s.count = 1)
    (w : WidthClass) (o : Order) : readBitAt o B s = readField w .unsigned o B s := by
  have hfield := h.fieldLegal hn w
  have haddrs := fieldAddrs_one hn B
  rcases readBitAt_cases o B s with ⟨c, hc, -⟩ | ⟨-, herr, e⟩ | ⟨-, hp, -⟩
  · rw [indexBit_eq_none.mpr h] at hc; cases hc
  · rw [e, hfield.readField_eq, haddrs, if_pos (readErrs_eq_true.mpr ⟨_, List.mem_cons_self, herr⟩)]
  · have hport : PortReads s [winAddr s (byteIndex B)] := by simpa [PortReads] using hp
    rw [h.readBitAt_eq hport, hfield.readField_of_port (haddrs ▸ hport), sint_count_one hn, present,
      Int.toNat_one, refRead_one]
    cases streamBit (winRead s) o B.toNat <;> rfl

/-- Settles O12: both commands are their reads at OFFSET. -/
theorem bitReadIsAOneBitFieldRead : Obligations.BitReadIsAOneBitFieldRead := by
  intro o s h hn
  rw [exec_readBit, exec_readWindow, h.readBitAt_eq_readField hn]

/-! ## Single-bit writes: O23 -/

/-- R151: a one-bit field write replaces the stream bit at `B` by the low bit of the value. -/
theorem refWriteBit_one (byte : Nat → Byte) (o : Order) (B : Nat) (v : Word64) (p : Nat) :
    refWriteBit byte o B 1 v p = if p = B then v.getLsbD 0 else streamBit byte o p := by
  unfold refWriteBit
  by_cases hp : p = B
  · subst hp
    cases o <;> simp [fieldWeight]
  · rw [if_neg (by omega), if_neg hp]

/-- R293, R294: the byte merged for a one-bit field is the byte read with the one bit replaced. -/
theorem BitLegal.mergedBytes_eq {s : State} {B : Int} (h : BitLegal s B) (hn : s.count = 1)
    (w : WidthClass) (o : Order) : mergedBytes s w o B = [replacedByte s o B] := by
  have hlen : (mergedBytes s w o B).length = 1 := by rw [length_mergedBytes, fieldBytes_one hn]
  obtain ⟨b, hb⟩ := List.length_eq_one_iff.mp hlen
  have hbyte : (mergedBytes s w o B).getD 0 0 = replacedByte s o B := by
    refine byte_eq_of_streamBit o (byteIndex B) fun p hp => ?_
    calc streamBit (fun _ => (mergedBytes s w o B).getD 0 0) o p
        = refWriteBit (winRead s) o B.toNat (sint s.count).toNat s.wdata p :=
          (h.fieldLegal hn w).streamBit_merged o hp (by rw [fieldBytes_one hn]; exact Nat.one_pos)
      _ = if p = B.toNat then wdataBit s else streamBit (winRead s) o p := by
          rw [sint_count_one hn, Int.toNat_one, refWriteBit_one]
          rfl
      _ = streamBit (fun _ => replacedByte s o B) o p := (streamBit_replacedByte s o hp).symm
  rw [← hbyte, hb]
  rfl

/-- R293, R294: the bit write and the one-bit field write agree, in every width class. -/
theorem BitLegal.writeBitAt_eq_writeField {s : State} {B : Int} (h : BitLegal s B) (hn : s.count = 1)
    (w : WidthClass) (o : Order) : writeBitAt o B s = writeField w o B s := by
  have hfield := h.fieldLegal hn w
  have haddrs := fieldAddrs_one hn B
  rcases writeBitAt_cases o B s with ⟨c, hc, -⟩ | ⟨-, herr, e⟩ | ⟨-, hp, -⟩
  · rw [indexBit_eq_none.mpr h] at hc; cases hc
  · rw [e, hfield.writeField_eq, haddrs, if_pos herr]
  · rw [h.writeBitAt_eq hp, hfield.writeField_eq, haddrs, writeErrs_eq_false.mpr hp,
      h.mergedBytes_eq hn]
    rfl

/-- Settles O23: both commands are their writes at OFFSET. -/
theorem bitWriteIsAOneBitFieldWrite : Obligations.BitWriteIsAOneBitFieldWrite := by
  intro o s h hn
  rw [exec_writeBit, exec_writeWindow, h.writeBitAt_eq_writeField hn]

end Sys2Proof.Machine
end

section
/-! Proofs. The cursor and the seeks (44_cursor.md): a cursor command is the window command at POS followed
by the advance (O30), what the legal cursor reads (O13, O14) and bit writes (O20) do, the seeks (O32) and
the host's write of POS (O51). -/

namespace Sys2Proof.Machine

/-! ## A cursor command delegates to the window command: O30 -/

/-- An operation on the window at a bit offset given to it: it neither reads nor writes OFFSET, and it does
not write POS. -/
structure KeepsCursor (op : State → State) : Prop where
  offset : ∀ (s : State) (a : Word32), op { s with offset := a } = { op s with offset := a }
  pos : ∀ s, (op s).pos = s.pos

theorem keepsCursor_readField (w : WidthClass) (g : Sign) (o : Order) (B : Int) :
    KeepsCursor (readField w g o B) where
  offset _ a := Overwrite.KeepsWindow.readField_apply (f := { offset := a }) {} rfl rfl w g o B
  pos s := (congrArg State.pos
    ((readField_ends w g o B s).mono (fun _ hu => hu.2) fun _ hu => hu).eq_of_rdataSet :)

theorem keepsCursor_writeField (w : WidthClass) (o : Order) (B : Int) :
    KeepsCursor (writeField w o B) where
  offset _ a := Overwrite.KeepsWindow.writeField_apply (f := { offset := a }) {} rfl rfl w o B
  pos s := (congrArg State.pos
    ((writeField_ends w o B s).mono (fun _ hu => hu.2) fun _ hu => hu.2).eq_of_memWritten.1 :)

theorem keepsCursor_readBitAt (o : Order) (B : Int) : KeepsCursor (readBitAt o B) where
  offset _ a := Overwrite.KeepsWindow.readBitAt_apply (f := { offset := a }) {} rfl o B
  pos s := (congrArg State.pos
    ((readBitAt_ends o B s).mono (fun _ hu => hu.2) fun _ hu => hu).eq_of_rdataSet :)

theorem keepsCursor_writeBitAt (o : Order) (B : Int) : KeepsCursor (writeBitAt o B) where
  offset _ a := Overwrite.KeepsWindow.writeBitAt_apply (f := { offset := a }) {} rfl o B
  pos s := (congrArg State.pos
    ((writeBitAt_ends o B s).mono (fun _ hu => hu.2) fun _ hu => hu.2).eq_of_memWritten.1 :)

/-- R300 (b) in one formula. -/
theorem advance_eq_ite (n : Word32) (s : State) :
    advance n s = { s with pos := if s.err = .ok then s.pos + n else s.pos } := by
  by_cases hok : s.err = .ok
  · rw [advance_of_ok n hok, if_pos hok]
    rfl
  · rw [advance_of_fault n hok, if_neg hok]

/-- R300: such an operation and the advance are the operation with OFFSET = POS, OFFSET put back, and the
advance if it succeeded. -/
theorem KeepsCursor.advance_eq {op : State → State} (h : KeepsCursor op) (n : Word32) (s : State) :
    advance n (op s) = { op { s with offset := s.pos } with
      offset := s.offset
      pos := if (op { s with offset := s.pos }).err = .ok then s.pos + n else s.pos } := by
  have hoffset : (op s).offset = s.offset := (congrArg State.offset (h.offset s s.offset) :)
  rw [advance_eq_ite, h.pos s, h.offset s s.pos, ← hoffset]

/-- Settles O30: the operation of each window command is given its place, OFFSET or POS. -/
theorem cursorDelegatesToTheWindowCommand : Obligations.CursorDelegatesToTheWindowCommand := by
  intro w g o s
  refine ⟨⟨_, exec_readWindow w g o _, ?_⟩, ⟨_, exec_writeWindow w g o _, ?_⟩,
    ⟨_, exec_readBit o _, ?_⟩, ⟨_, exec_writeBit o _, ?_⟩⟩
  · rw [exec_cursorRead, cursorReadField, (keepsCursor_readField w g o _).advance_eq]
  · rw [exec_cursorWrite, cursorWriteField, (keepsCursor_writeField w o _).advance_eq]
  · rw [exec_cursorReadBit, cursorReadBitAt, (keepsCursor_readBitAt o _).advance_eq]
  · rw [exec_cursorWriteBit, cursorWriteBitAt, (keepsCursor_writeBitAt o _).advance_eq]

/-! ## Legal cursor commands: O13, O14 and O20 -/

/-- Settles O13: the legal read at POS succeeds, so POS advances. -/
theorem cursorReadReadsAndAdvances : Obligations.CursorReadReadsAndAdvances := by
  intro w g o s hl hp
  rw [exec_cursorRead, cursorReadField, hl.readField_of_port hp, advance_of_ok _ (succeed_err _)]
  rfl

/-- Settles O14: the legal bit read at POS succeeds, so POS advances. -/
theorem cursorBitReadReadsAndAdvances : Obligations.CursorBitReadReadsAndAdvances := by
  intro o s hl hp
  rw [exec_cursorReadBit, cursorReadBitAt, hl.readBitAt_eq hp, advance_of_ok _ (succeed_err _)]
  rfl

/-- Settles O20: the write-back at POS replaces one byte and succeeds, so POS advances. -/
theorem cursorBitWriteSetsOneBitAndAdvances : Obligations.CursorBitWriteSetsOneBitAndAdvances := by
  intro o s hm hl hp
  obtain ⟨m, hw, hcanonical, hbit, hframe⟩ := writeBack_replacedByte hm o (sint s.pos)
  refine ⟨m, ?_, hcanonical, hbit, hframe⟩
  rw [exec_cursorWriteBit, cursorWriteBitAt, hl.writeBitAt_eq hp, hw, advance_of_ok _ (succeed_err _)]
  rfl

/-! ## Seeks and the host's write of POS: O32 and O51 -/

theorem exec_seek_of_unbound {s : State} (hb : s.bound = false) (g : Origin) :
    exec (Instr.seek g) s = .next (raise s .nullBuffer) := by
  rw [exec_seek, seekTo, hb]
  rfl

theorem exec_seek_of_bound {s : State} (hb : s.bound = true) (g : Origin) :
    exec (Instr.seek g) s = .next (succeed (s.setPos (seekTarget g s))) := by
  rw [exec_seek, seekTo, if_pos hb]

/-- The end of a bound window, from which SEEK.END counts, is what LENGTH reads (R48, R349). -/
theorem seekTarget_fromEnd {s : State} (hb : s.bound = true) :
    seekTarget .fromEnd s = lengthWord s + s.offset := by
  rw [seekTarget, lengthWord, if_pos hb]

/-- Settles O32, an origin at a time. -/
theorem seekAssignsThePosition : Obligations.SeekAssignsThePosition := by
  intro s
  refine ⟨exec_seek_of_unbound, fun hb => ⟨exec_seek_of_bound hb .begin,
    exec_seek_of_bound hb .current, ?_⟩⟩
  rw [← seekTarget_fromEnd hb]
  exact exec_seek_of_bound hb .fromEnd

/-- Settles O51: POS is a plain register of the map, and SEEK.BEGIN assigns it OFFSET (O32). -/
theorem posWriteIsAnUncheckedSeek : Obligations.PosWriteIsAnUncheckedSeek := by
  intro s v hb
  refine ⟨hostStep_writePlain (by decide) hb v, fun hbound => ?_⟩
  obtain ⟨-, hseek⟩ := seekAssignsThePosition { s with offset := v }
  exact (hseek hbound).1

end Sys2Proof.Machine
end

section
/-! Proofs. BIND (45_control.md R370, R389): what it does to too long a request and to any other (O33). -/

namespace Sys2Proof.Machine

/-- The base that BIND takes is `WBASE` modulo the address space, held in 64 bits (R49, log 16). -/
theorem bindBase_eq_ofNat (s : State) :
    bindBase s = BitVec.ofNat 64 (s.wbase.toNat % s.params.addrSpace) := by
  apply BitVec.eq_of_toNat_eq
  rw [bindBase, trunc, BitVec.toNat_setWidth, BitVec.toNat_setWidth, BitVec.toNat_ofNat,
    Params.addrSpace]

theorem exec_bind_of_size {s : State} (h : Config.maxLen ≤ s.wlenReq.toNat) :
    exec .bind s = .next (raise s .size) := by
  rw [exec_bind, bindWindow, if_pos h]

theorem exec_bind_of_lt {s : State} (h : s.wlenReq.toNat < Config.maxLen) :
    exec .bind s = .next (succeed ((s.setWindow (bindBase s) s.wlenReq).setPos 0)) := by
  rw [exec_bind, bindWindow, if_neg (Nat.not_le.mpr h)]

/-- Settles O33: BIND splits on the length of the request, and the base it takes is the address bits of
`WBASE`. -/
theorem bindBindsTheWindow : Obligations.BindBindsTheWindow := by
  refine ⟨decode_encode .bind, fun s => ⟨exec_bind_of_size, fun hlen => ?_⟩⟩
  rw [← bindBase_eq_ofNat]
  exact exec_bind_of_lt hlen

end Sys2Proof.Machine
end

section
/-! Proofs. The faults (60_exceptions.md): which result each command ends with, cause by cause in the
priority of R391 (O34 to O38, O42), the atomicity of faults (O39), the codes that are produced (O40), the
illegal word (O6) and the idle step (O7). -/

namespace Sys2Proof.Machine

/-! ## Operands that the validations reject -/

/-- R384 for the window forms: each cause breaks a clause of R171. -/
theorem not_fieldLegal_of_range {s : State} {w : WidthClass} {B : Int}
    (h : sint s.count < 0 ∨ (widthBits s.params w : Int) < sint s.count ∨ B < 0 ∨
      8 * (s.winLen.toNat : Int) < B + sint s.count) : ¬ FieldLegal s w B := by
  rintro ⟨-, hcount, hwidth, hoffset, hwindow⟩
  omega

/-- R384 for the scalar forms: the causes are the negated clauses of R173. -/
theorem not_scalarLegal_iff {s : State} {w : WidthClass} :
    ¬ ScalarLegal s w ↔
      (sint s.count < 0 ∨ (widthBits s.params w : Int) < sint s.count ∨ sint s.offset < 0 ∨
        (widthBits s.params w : Int) < sint s.offset + sint s.count) := by
  constructor
  · intro h
    by_contra hrange
    exact h ⟨by omega, by omega, by omega, by omega⟩
  · rintro h ⟨hcount, hwidth, hoffset, hscalar⟩
    omega

/-- R388: the arithmetic shift of a bit offset by 3 is its byte index. -/
theorem not_bitLegal_of_index {s : State} {B : Int}
    (h : B >>> (3 : Nat) < 0 ∨ (s.winLen.toNat : Int) ≤ B >>> (3 : Nat)) : ¬ BitLegal s B := by
  rintro ⟨-, hlow, hhigh⟩
  have hshift : B >>> (3 : Nat) = B / 8 := Int.shiftRight_eq_div_pow B 3
  omega

/-! ## Port errors -/

theorem not_portReads_of_err {s : State} {addrs : List Nat} (h : readErrs s addrs = true) :
    ¬ PortReads s addrs := by
  simp [← readErrs_eq_false, h]

theorem not_portWrites_of_err {s : State} {addrs : List Nat} (h : writeErrs s addrs = true) :
    ¬ PortWrites s addrs := by
  simp [← writeErrs_eq_false, h]

/-- R386: what a port error of a write command leaves, the bytes at the addresses free. -/
theorem raise_scramble_eq (s : State) (addrs : List Nat) :
    ∃ m f, raise (scramble s addrs) .busError =
        { s with mem := m, freeCount := f, err := .busError, sticky := true } ∧
      ∀ x, x ∉ addrs → m.read x = s.mem.read x := by
  obtain ⟨m, e, hK⟩ := scramble_eq s addrs
  exact ⟨m, _, by rw [e]; rfl, hK.outside⟩

/-! ## The priority of faults -/

/-- How a field or bit command of the window ends on `s`, by the first cause of R391 that applies: no
window; operands that are not `legal`, with the fault `c` of its validation; a port that does not let its
accesses pass, once `damaged` has come over the state; or well. -/
inductive WindowEnds (s : State) (legal passes : Prop) (c : ResultCode) (damaged : State) :
    Host.Outcome State Fault Refusal → Prop where
  | unbound (hb : s.bound = false) (hl : ¬ legal) :
      WindowEnds s legal passes c damaged (.next (raise s .nullBuffer))
  | illegal (hb : s.bound = true) (hl : ¬ legal) :
      WindowEnds s legal passes c damaged (.next (raise s c))
  | portError (hb : s.bound = true) (hl : legal) (hp : ¬ passes) :
      WindowEnds s legal passes c damaged (.next (raise damaged .busError))
  | success (hb : s.bound = true) (hl : legal) (hp : passes) (u : State) :
      WindowEnds s legal passes c damaged (.next (succeed u))

namespace WindowEnds

variable {s damaged t : State} {legal passes : Prop} {c : ResultCode}
  {r : Host.Outcome State Fault Refusal}

theorem eq_of_unbound (h : WindowEnds s legal passes c damaged r) (hb : s.bound = false) :
    r = .next (raise s .nullBuffer) := by
  cases h with
  | unbound => rfl
  | illegal hb' | portError hb' | success hb' => rw [hb] at hb'; cases hb'

theorem eq_of_illegal (h : WindowEnds s legal passes c damaged r) (hb : s.bound = true)
    (hl : ¬ legal) : r = .next (raise s c) := by
  cases h with
  | unbound hb' => rw [hb] at hb'; cases hb'
  | illegal => rfl
  | portError _ hl' | success _ hl' => exact absurd hl' hl

theorem eq_of_portError (h : WindowEnds s legal passes c damaged r) (hl : legal) (hp : ¬ passes) :
    r = .next (raise damaged .busError) := by
  cases h with
  | unbound _ hl' | illegal _ hl' => exact absurd hl hl'
  | portError => rfl
  | success _ _ hp' => exact absurd hp' hp

theorem eq_of_success (h : WindowEnds s legal passes c damaged r) (hl : legal) (hp : passes) :
    ∃ u, r = .next (succeed u) := by
  cases h with
  | unbound _ hl' | illegal _ hl' => exact absurd hl hl'
  | portError _ _ hp' => exact absurd hp hp'
  | success _ _ _ u => exact ⟨u, rfl⟩

/-- R391 as the code that the command leaves in ERR. -/
theorem err_eq (h : WindowEnds s legal passes c damaged r) (hr : r = .next t) :
    (s.bound = false → t.err = .nullBuffer) ∧
      (s.bound = true → ¬ legal → t.err = c) ∧
      (legal → ¬ passes → t.err = .busError) ∧
      (legal → passes → t.err = .ok) := by
  subst hr
  refine ⟨fun hb => ?_, fun hb hl => ?_, fun hl hp => ?_, fun hl hp => ?_⟩
  · cases h.eq_of_unbound hb; rfl
  · cases h.eq_of_illegal hb hl; rfl
  · cases h.eq_of_portError hl hp; rfl
  · obtain ⟨u, hu⟩ := h.eq_of_success hl hp
    cases hu
    rfl

/-- The advance of a cursor command leaves its cause as it is (R300). -/
theorem advance (h : WindowEnds s legal passes c damaged (.next t)) (hc : c ≠ .ok) (n : Word32) :
    WindowEnds s legal passes c damaged (.next (advance n t)) := by
  cases h with
  | unbound hb hl => rw [advance_of_fault n ResultCode.noConfusion]; exact .unbound hb hl
  | illegal hb hl => rw [advance_of_fault n hc]; exact .illegal hb hl
  | portError hb hl hp => rw [advance_of_fault n ResultCode.noConfusion]; exact .portError hb hl hp
  | success hb hl hp u => rw [advance_of_ok n rfl]; exact .success hb hl hp (u.setPos _)

end WindowEnds

/-! ### The window operations -/

/-- R171 rejects operands that are not legal, NULL_BUFFER before OUT_OF_RANGE. -/
theorem windowEnds_of_checkWindow {s damaged : State} {w : WidthClass} {B : Int} {c : ResultCode}
    {passes : Prop} (h : checkWindow s B (sint s.count) (widthBits s.params w) = some c) :
    WindowEnds s (FieldLegal s w B) passes .outOfRange damaged (.next (raise s c)) := by
  have hl : ¬ FieldLegal s w B := by rw [← checkWindow_eq_none, h]; exact nofun
  rcases checkWindow_eq_some h with ⟨hb, rfl⟩ | ⟨hb, rfl⟩
  · exact .unbound hb hl
  · exact .illegal hb hl

/-- R290 rejects an operand that is not legal, NULL_BUFFER before INDEX. -/
theorem windowEnds_of_indexBit {s damaged : State} {B : Int} {c : ResultCode} {passes : Prop}
    (h : indexBit s B = some c) :
    WindowEnds s (BitLegal s B) passes .index damaged (.next (raise s c)) := by
  have hl : ¬ BitLegal s B := by rw [← indexBit_eq_none, h]; exact nofun
  rcases indexBit_eq_some h with ⟨hb, rfl⟩ | ⟨hb, -, rfl⟩
  · exact .unbound hb hl
  · exact .illegal hb hl

theorem readField_windowEnds (w : WidthClass) (g : Sign) (o : Order) (B : Int) (s : State) :
    WindowEnds s (FieldLegal s w B) (PortReads s (fieldAddrs s B)) .outOfRange s
      (.next (readField w g o B s)) := by
  rcases readField_cases w g o B s with ⟨c, hc, e⟩ | ⟨hl, herr, e⟩ | ⟨hl, hp, e⟩ <;> rw [e]
  · exact windowEnds_of_checkWindow hc
  · exact .portError hl.bound hl (not_portReads_of_err herr)
  · exact .success hl.bound hl hp _

theorem writeField_windowEnds (w : WidthClass) (o : Order) (B : Int) (s : State) :
    WindowEnds s (FieldLegal s w B) (PortWrites s (fieldAddrs s B)) .outOfRange
      (scramble s (fieldAddrs s B)) (.next (writeField w o B s)) := by
  rcases writeField_cases w o B s with ⟨c, hc, e⟩ | ⟨hl, herr, e⟩ | ⟨hl, hp, e⟩ <;> rw [e]
  · exact windowEnds_of_checkWindow hc
  · exact .portError hl.bound hl (not_portWrites_of_err herr)
  · exact .success hl.bound hl hp _

theorem readBitAt_windowEnds (o : Order) (B : Int) (s : State) :
    WindowEnds s (BitLegal s B) (PortReads s [winAddr s (byteIndex B)]) .index s
      (.next (readBitAt o B s)) := by
  rcases readBitAt_cases o B s with ⟨c, hc, e⟩ | ⟨hl, herr, e⟩ | ⟨hl, hp, e⟩ <;> rw [e]
  · exact windowEnds_of_indexBit hc
  · exact .portError hl.bound hl fun hp => hp _ List.mem_cons_self herr
  · exact .success hl.bound hl (by simpa [PortReads] using hp) _

theorem writeBitAt_windowEnds (o : Order) (B : Int) (s : State) :
    WindowEnds s (BitLegal s B) (PortWrites s [winAddr s (byteIndex B)]) .index
      (scramble s [winAddr s (byteIndex B)]) (.next (writeBitAt o B s)) := by
  rcases writeBitAt_cases o B s with ⟨c, hc, e⟩ | ⟨hl, herr, e⟩ | ⟨hl, hp, e⟩ <;> rw [e]
  · exact windowEnds_of_indexBit hc
  · exact .portError hl.bound hl (not_portWrites_of_err herr)
  · exact .success hl.bound hl hp _

/-! ### The window commands -/

section

variable (w : WidthClass) (g : Sign) (o : Order) (s : State)

theorem read_windowEnds : WindowEnds s (FieldLegal s w (sint s.offset))
    (PortReads s (fieldAddrs s (sint s.offset))) .outOfRange s
    (exec (Instr.read w g o .window) s) := by
  rw [exec_readWindow]
  exact readField_windowEnds w g o _ s

theorem write_windowEnds : WindowEnds s (FieldLegal s w (sint s.offset))
    (PortWrites s (fieldAddrs s (sint s.offset))) .outOfRange
    (scramble s (fieldAddrs s (sint s.offset))) (exec (Instr.write w g o .window) s) := by
  rw [exec_writeWindow]
  exact writeField_windowEnds w o _ s

theorem readBit_windowEnds : WindowEnds s (BitLegal s (sint s.offset))
    (PortReads s [winAddr s (byteIndex (sint s.offset))]) .index s (exec (Instr.readBit o) s) := by
  rw [exec_readBit]
  exact readBitAt_windowEnds o _ s

theorem writeBit_windowEnds : WindowEnds s (BitLegal s (sint s.offset))
    (PortWrites s [winAddr s (byteIndex (sint s.offset))]) .index
    (scramble s [winAddr s (byteIndex (sint s.offset))]) (exec (Instr.writeBit o) s) := by
  rw [exec_writeBit]
  exact writeBitAt_windowEnds o _ s

theorem cursorRead_windowEnds : WindowEnds s (FieldLegal s w (sint s.pos))
    (PortReads s (fieldAddrs s (sint s.pos))) .outOfRange s (exec (Instr.cursorRead w g o) s) := by
  rw [exec_cursorRead]
  exact (readField_windowEnds w g o _ s).advance ResultCode.noConfusion s.count

theorem cursorWrite_windowEnds : WindowEnds s (FieldLegal s w (sint s.pos))
    (PortWrites s (fieldAddrs s (sint s.pos))) .outOfRange
    (scramble s (fieldAddrs s (sint s.pos))) (exec (Instr.cursorWrite w g o) s) := by
  rw [exec_cursorWrite]
  exact (writeField_windowEnds w o _ s).advance ResultCode.noConfusion s.count

theorem cursorReadBit_windowEnds : WindowEnds s (BitLegal s (sint s.pos))
    (PortReads s [winAddr s (byteIndex (sint s.pos))]) .index s
    (exec (Instr.cursorReadBit o) s) := by
  rw [exec_cursorReadBit]
  exact (readBitAt_windowEnds o _ s).advance ResultCode.noConfusion 1

theorem cursorWriteBit_windowEnds : WindowEnds s (BitLegal s (sint s.pos))
    (PortWrites s [winAddr s (byteIndex (sint s.pos))]) .index
    (scramble s [winAddr s (byteIndex (sint s.pos))]) (exec (Instr.cursorWriteBit o) s) := by
  rw [exec_cursorWriteBit]
  exact (writeBitAt_windowEnds o _ s).advance ResultCode.noConfusion 1

end

/-! ### The scalar commands -/

/-- How a scalar command of class `w` ends on `s`: with OUT_OF_RANGE, or well (R173, R391). -/
inductive ScalarEnds (s : State) (w : WidthClass) : Host.Outcome State Fault Refusal → Prop where
  | illegal (hl : ¬ ScalarLegal s w) : ScalarEnds s w (.next (raise s .outOfRange))
  | success (hl : ScalarLegal s w) (u : State) : ScalarEnds s w (.next (succeed u))

theorem readScalar_scalarEnds (w : WidthClass) (g : Sign) (o : Order) (s : State) :
    ScalarEnds s w (exec (Instr.read w g o .scalar) s) := by
  rw [exec_readScalar]
  rcases readScalar_cases w g o s with ⟨hl, e⟩ | ⟨hl, e⟩ <;> rw [e]
  · exact .illegal hl
  · exact .success hl _

theorem writeScalar_scalarEnds (w : WidthClass) (g : Sign) (o : Order) (s : State) :
    ScalarEnds s w (exec (Instr.write w g o .scalar) s) := by
  rw [exec_writeScalar]
  rcases writeScalar_cases w o s with ⟨hl, e⟩ | ⟨hl, e⟩ <;> rw [e]
  · exact .illegal hl
  · exact .success hl _

namespace ScalarEnds

variable {s t : State} {w : WidthClass} {r : Host.Outcome State Fault Refusal}

theorem eq_of_illegal (h : ScalarEnds s w r) (hl : ¬ ScalarLegal s w) :
    r = .next (raise s .outOfRange) := by
  cases h with
  | illegal => rfl
  | success hl' => exact absurd hl' hl

/-- R173, R384 as the code that the command leaves in ERR. -/
theorem err_eq (h : ScalarEnds s w r) (hr : r = .next t) :
    t.err = if sint s.count < 0 ∨ (widthBits s.params w : Int) < sint s.count ∨ sint s.offset < 0 ∨
      (widthBits s.params w : Int) < sint s.offset + sint s.count then .outOfRange else .ok := by
  subst hr
  cases h with
  | illegal hl => exact (if_pos (not_scalarLegal_iff.mp hl)).symm
  | success hl => exact (if_neg fun hrange => not_scalarLegal_iff.mpr hrange hl).symm

theorem err_ne_nullBuffer (h : ScalarEnds s w r) : ∃ t, r = .next t ∧ t.err ≠ .nullBuffer := by
  cases h with
  | illegal => exact ⟨_, rfl, ResultCode.noConfusion⟩
  | success => exact ⟨_, rfl, ResultCode.noConfusion⟩

end ScalarEnds

/-! ## The causes one by one: O34 to O38, and their priority: O42 -/

/-- BIND faults for the size of its request only (R370, R389). -/
theorem exec_bind_err_ne_nullBuffer (s : State) : ∃ t, exec .bind s = .next t ∧ t.err ≠ .nullBuffer := by
  refine ⟨_, exec_bind s, ?_⟩
  rcases bindWindow_cases s with ⟨-, e⟩ | ⟨-, e⟩ <;> rw [e] <;> exact ResultCode.noConfusion

/-- Settles O34: no window is the first cause of every window command; a scalar command and BIND have
other causes. -/
theorem unboundWindowCommandsFault : Obligations.UnboundWindowCommandsFault := by
  intro w g o k s
  refine ⟨fun hb => ?_, ?_⟩ <;> simp only [List.forall_mem_cons]
  · exact ⟨(read_windowEnds w g o s).eq_of_unbound hb, (write_windowEnds w g o s).eq_of_unbound hb,
      (cursorRead_windowEnds w g o s).eq_of_unbound hb,
      (cursorWrite_windowEnds w g o s).eq_of_unbound hb,
      (readBit_windowEnds o s).eq_of_unbound hb, (writeBit_windowEnds o s).eq_of_unbound hb,
      (cursorReadBit_windowEnds o s).eq_of_unbound hb,
      (cursorWriteBit_windowEnds o s).eq_of_unbound hb, exec_seek_of_unbound hb k, nofun⟩
  · exact ⟨(readScalar_scalarEnds w g o s).err_ne_nullBuffer,
      (writeScalar_scalarEnds w g o s).err_ne_nullBuffer, exec_bind_err_ne_nullBuffer s, nofun⟩

/-- Settles O35: operands out of range are not legal, and that is the first cause with a window bound. -/
theorem rangeViolationsFault : Obligations.RangeViolationsFault := by
  intro w g o s
  refine ⟨fun hb hrange => ?_, fun hb hrange => ?_, fun hrange => ?_⟩ <;>
    simp only [List.forall_mem_cons]
  · have hl := not_fieldLegal_of_range hrange
    exact ⟨(read_windowEnds w g o s).eq_of_illegal hb hl,
      (write_windowEnds w g o s).eq_of_illegal hb hl, nofun⟩
  · have hl := not_fieldLegal_of_range hrange
    exact ⟨(cursorRead_windowEnds w g o s).eq_of_illegal hb hl,
      (cursorWrite_windowEnds w g o s).eq_of_illegal hb hl, nofun⟩
  · have hl := not_scalarLegal_iff.mpr hrange
    exact ⟨(readScalar_scalarEnds w g o s).eq_of_illegal hl,
      (writeScalar_scalarEnds w g o s).eq_of_illegal hl, nofun⟩

/-- Settles O36: an index outside the window is not legal, and that is the first cause with one bound. -/
theorem indexViolationsFault : Obligations.IndexViolationsFault := by
  intro o s hb
  refine ⟨fun hindex => ?_, fun hindex => ?_⟩ <;> simp only [List.forall_mem_cons]
  · have hl := not_bitLegal_of_index hindex
    exact ⟨(readBit_windowEnds o s).eq_of_illegal hb hl,
      (writeBit_windowEnds o s).eq_of_illegal hb hl, nofun⟩
  · have hl := not_bitLegal_of_index hindex
    exact ⟨(cursorReadBit_windowEnds o s).eq_of_illegal hb hl,
      (cursorWriteBit_windowEnds o s).eq_of_illegal hb hl, nofun⟩

/-- Settles O37: the port error of a read command leaves the state as it found it. -/
theorem portErrorFaultsReads : Obligations.PortErrorFaultsReads := fun w g o s =>
  ⟨(read_windowEnds w g o s).eq_of_portError, (cursorRead_windowEnds w g o s).eq_of_portError,
    (readBit_windowEnds o s).eq_of_portError, (cursorReadBit_windowEnds o s).eq_of_portError⟩

/-- What a write command does whose bytes at `addrs` the port does not let pass (R386). -/
theorem WindowEnds.mem_of_portError {s : State} {legal passes : Prop} {c : ResultCode}
    {addrs : List Nat} {r : Host.Outcome State Fault Refusal}
    (h : WindowEnds s legal passes c (scramble s addrs) r) (hl : legal) (hp : ¬ passes) :
    ∃ m f, r = .next { s with mem := m, freeCount := f, err := .busError, sticky := true } ∧
      ∀ x, x ∉ addrs → m.read x = s.mem.read x := by
  obtain ⟨m, f, e, hm⟩ := raise_scramble_eq s addrs
  exact ⟨m, f, (h.eq_of_portError hl hp).trans (congrArg _ e), hm⟩

/-- Settles O38: the port error of a write command frees the bytes of its span; a bit has one byte. -/
theorem portErrorFaultsWrites : Obligations.PortErrorFaultsWrites := by
  intro w g o s
  refine ⟨(write_windowEnds w g o s).mem_of_portError,
    (cursorWrite_windowEnds w g o s).mem_of_portError, fun hl hp => ?_, fun hl hp => ?_⟩
  · simpa only [List.mem_singleton] using (writeBit_windowEnds o s).mem_of_portError hl hp
  · simpa only [List.mem_singleton] using (cursorWriteBit_windowEnds o s).mem_of_portError hl hp

/-- Settles O42: each command's end names the first cause that applies. -/
theorem faultsFollowTheirPriority : Obligations.FaultsFollowTheirPriority := fun w g o s _ =>
  ⟨(read_windowEnds w g o s).err_eq, (write_windowEnds w g o s).err_eq,
    (readBit_windowEnds o s).err_eq, (writeBit_windowEnds o s).err_eq,
    fun h => h.elim (readScalar_scalarEnds w g o s).err_eq (writeScalar_scalarEnds w g o s).err_eq⟩

/-! ## Faults change nothing else: O39 -/

/-- Settles O39: an illegal word raises ILLEGAL_COMMAND alone, and a command's fault is one raised before
its accesses unless the port raised it. -/
theorem faultsAreAtomic : Obligations.FaultsAreAtomic := by
  intro c s t hb h hok hbus
  rw [issue_eq_runWord c hb] at h
  cases hd : decode c with
  | ok i =>
    rw [runWord_of_decode hd] at h
    exact ((ends_of_exec h).eq_of_fault hok).2 hbus
  | error e =>
    simp only [runWord, hd] at h
    cases h
    rfl

/-! ## The codes that are produced: O40 -/

/-- The codes that a legal word can end with: all that are produced (R390) but ILLEGAL_COMMAND (R383). -/
@[reducible] def ResultCode.OfCommand (c : ResultCode) : Prop :=
  c ≠ .illegalCommand ∧ c ≠ .notSupported

theorem WindowEnds.completes {s damaged : State} {legal passes : Prop} {c : ResultCode}
    {r : Host.Outcome State Fault Refusal} (h : WindowEnds s legal passes c damaged r)
    (hc : c.OfCommand) : ∃ t, r = .next t ∧ t.err.OfCommand := by
  cases h with
  | unbound => exact ⟨_, rfl, nofun, nofun⟩
  | illegal => exact ⟨_, rfl, hc⟩
  | portError => exact ⟨_, rfl, nofun, nofun⟩
  | success => exact ⟨_, rfl, nofun, nofun⟩

theorem ScalarEnds.completes {s : State} {w : WidthClass} {r : Host.Outcome State Fault Refusal}
    (h : ScalarEnds s w r) : ∃ t, r = .next t ∧ t.err.OfCommand := by
  cases h with
  | illegal => exact ⟨_, rfl, nofun, nofun⟩
  | success => exact ⟨_, rfl, nofun, nofun⟩

theorem ofCommand_seekTo_err (g : Origin) (s : State) : (seekTo g s).err.OfCommand := by
  rcases seekTo_cases g s with ⟨-, e⟩ | ⟨-, e⟩ <;> rw [e] <;> exact ⟨nofun, nofun⟩

theorem ofCommand_bindWindow_err (s : State) : (bindWindow s).err.OfCommand := by
  rcases bindWindow_cases s with ⟨-, e⟩ | ⟨-, e⟩ <;> rw [e] <;> exact ⟨nofun, nofun⟩

/-- Every command completes, with a code that a legal word can end with (R380, R382). -/
theorem exec_completes (i : Instr) (s : State) : ∃ t, exec i s = .next t ∧ t.err.OfCommand := by
  have hrange : ResultCode.outOfRange.OfCommand := by decide
  have hindex : ResultCode.index.OfCommand := by decide
  rcases instr_kinds i with ⟨w, g, o, k, rfl⟩ | ⟨w, g, o, k, rfl⟩ | ⟨o, rfl⟩ | ⟨o, rfl⟩ |
    ⟨w, g, o, rfl⟩ | ⟨w, g, o, rfl⟩ | ⟨o, rfl⟩ | ⟨o, rfl⟩ | ⟨g, rfl⟩ | rfl
  · cases k with
    | window => exact (read_windowEnds w g o s).completes hrange
    | scalar => exact (readScalar_scalarEnds w g o s).completes
  · cases k with
    | window => exact (write_windowEnds w g o s).completes hrange
    | scalar => exact (writeScalar_scalarEnds w g o s).completes
  · exact (readBit_windowEnds o s).completes hindex
  · exact (writeBit_windowEnds o s).completes hindex
  · exact (cursorRead_windowEnds w g o s).completes hrange
  · exact (cursorWrite_windowEnds w g o s).completes hrange
  · exact (cursorReadBit_windowEnds o s).completes hindex
  · exact (cursorWriteBit_windowEnds o s).completes hindex
  · exact ⟨_, exec_seek g s, ofCommand_seekTo_err g s⟩
  · exact ⟨_, exec_bind s, ofCommand_bindWindow_err s⟩

/-- Every word, legal or not, completes with a code that is produced (R390). -/
theorem runWord_completes (c : Word32) (s : State) :
    ∃ t, runWord c s = .next t ∧ t.err ≠ .notSupported := by
  cases hd : decode c with
  | ok i =>
    obtain ⟨t, h, -, ht⟩ := exec_completes i s
    exact ⟨t, (runWord_of_decode hd s).trans h, ht⟩
  | error e => exact ⟨raise s .illegalCommand, by simp only [runWord, hd], nofun⟩

/-- Settles O40: the word's run completes, and the CMD write then clears BUSY. -/
theorem everyCommandCompletes : Obligations.EveryCommandCompletes := by
  refine ⟨fun c s => ?_, exec_completes⟩
  obtain ⟨t, h, ht⟩ := runWord_completes c (s.setBusy true)
  exact ⟨t.setBusy false, by rw [issue, h]; rfl, ht, rfl⟩

/-! ## The illegal word and the idle step: O6 and O7 -/

/-- Settles O6: the step takes the CMD write off the queue, and its word decodes to no command. -/
theorem illegalWordOnlySetsStatus : Obligations.IllegalWordOnlySetsStatus := by
  intro s rest c hb hq hc
  rw [step_cons hq]
  exact (hostStep_regWrite_cmd (s := { s with hostQueue := rest }) (width := .bits32) hb (by decide)
    c).trans (runWord_of_illegal hc _)

/-- Settles O7, by the first case of the step. -/
theorem idleStepHoldsAllState : Obligations.IdleStepHoldsAllState := by
  intro s hq
  rw [step, hq]

end Sys2Proof.Machine
end

section
/-! Proofs. Reset between commands (O54). -/

namespace Sys2Proof.Machine

/-- Reset asserted between commands has no premise, BUSY included (R420). -/
theorem hostStep_reset (s : State) : hostStep .reset s = .next (blockReset s) := rfl

/-- Settles O54: the state after the step is the power-on state of the same parameters (R57), but for
window memory and the host's own side. -/
theorem resetZeroesTheBlock : Obligations.ResetZeroesTheBlock := by
  intro s
  refine ⟨blockReset s, hostStep_reset s, ?_⟩
  simp only [blockReset, State.resetWith, and_self]

end Sys2Proof.Machine
end
